-- ==== Sys2Proof/Word.lean ====
section
/-! DEFINITION. The words of the machine (R4, R6): the widths the manual names, and nothing else. -/
namespace Sys2Proof

/-- A register word (R174). -/
abbrev Word := BitVec 32
/-- A byte of storage (R6). -/
abbrev Byte := BitVec 8
/-- A 64-bit register or memory word. -/
abbrev DWord := BitVec 64
/-- A lane mask: bit `l` is lane `l` of the wave (R194). -/
abbrev LaneMask := BitVec 32
/-- An instruction word (R214). -/
abbrev IWord := BitVec 96

/-- Bits `[hi:lo]` of a 64-bit word, as a number (R4). -/
def bits (w : DWord) (hi lo : Nat) : Nat := (w.toNat >>> lo) % 2 ^ (hi + 1 - lo)

/-- Bit `i` of a 64-bit word. -/
def bit (w : DWord) (i : Nat) : Bool := w.getLsbD i

/-- A word whose bits `[hi:lo]` are replaced by `v` (R4). -/
def setBits (w : DWord) (hi lo v : Nat) : DWord :=
  let m := (2 ^ (hi + 1 - lo) - 1) <<< lo
  (w &&& ~~~ (BitVec.ofNat 64 m)) ||| BitVec.ofNat 64 ((v <<< lo) &&& m)

end Sys2Proof
end

