-- ==== Sys2Proof/Config.lean ====
section
/-! DEFINITION. What the manual leaves open: the free values.  Each is a constant with no body, so that nothing can
evaluate it and a claim holds whatever it is.  The log entry that names each stands beside it. -/
namespace Sys2Proof.Config

/-- The number by which the `n`-th free choice of the machine is made: which ready wave or internal event comes next
(R129, R388, R424).  DESIGN CHOICE, log entry 2. -/
opaque choose : Nat → Nat

/-- Where the device maps the window of the trapped wave, and the inspection window after it, in the context space of a
handler of a cluster, in 64 KiB units (R414).  DESIGN CHOICE, log entry 31. -/
opaque waveWindow : Nat → Nat
opaque inspectWindow : Nat → Nat

/-- Which surviving channel of its die serves a line, by its location divided by 256, whose own channel is retired (R72).  DESIGN CHOICE,
log entry 50. -/
opaque channelFor : Nat → Nat

/-- Which of the rays of an operation that can go on does so in the `n`-th step (R446).  DESIGN CHOICE, log entry 2. -/
opaque pickRay : Nat → Nat
/-- How many of its writes a failed engine operation has performed, drawn from a count of the state.  DESIGN CHOICE, log entry 12. -/
opaque failedAfter : Nat → Nat

/-- Which of `i` cached translations that serve one access the `n`-th step uses (R29).  DESIGN CHOICE, log entry 6. -/
opaque pickTlb : Nat → Nat → Nat
/-- Which of `i` cached translations goes when the `n`-th step fills their structure; from `i` on none, where one need not go (R27).
DESIGN CHOICE, log entry 6. -/
opaque tlbVictim : Nat → Nat → Nat
/-- Whether a walk in the `n`-th step uses the entry that the walk cache holds of a level (R27).  DESIGN CHOICE, log entry 6. -/
opaque walkCached : Nat → Nat → Bool
/-- Which of `i` missing pages that a wave waits for the `n`-th step walks (R28).  DESIGN CHOICE, log entry 6. -/
opaque pickWalk : Nat → Nat → Nat
/-- Whether a peer refuses, in the `n`-th step, an access to a PA of its memory (R22, R32).  DESIGN CHOICE, log entry 15. -/
opaque peerRefuses : Nat → Nat → Bool

/-- Whether a read of a service core in the `n`-th step finds the 64-byte sector at a location spilled already, while the Ferry still
holds its write (R192).  DESIGN CHOICE, log entry 48. -/
opaque spillSeen : Nat → Nat → Bool

/-- Whether, as the `n`-th step ends, the caches keep bound windows as memory now stands (R26).  DESIGN CHOICE, log entry 49. -/
opaque windowKept : Nat → Bool

/-- From which kept copy the LDP of a lane in the `n`-th step reads an aligned word of a bound window: 0 for none (R26).
DESIGN CHOICE, log entry 49. -/
opaque windowOld : Nat → Nat → Nat → Nat

/-- Whether part `i` of a COPY or XFM whose ranges overlap reads its source, in the `n`-th step, as the operation's own writes have
left it rather than as it stood before (R318, R359).  DESIGN CHOICE, log entry 47. -/
opaque overlapNew : Nat → Nat → Bool
/-- Which of `i` elements that are left an overlapping XFM converts next in the `n`-th step (R359).  DESIGN CHOICE, log entry 47. -/
opaque overlapNext : Nat → Nat → Nat

/-- Whether a word that an outstanding counted instruction writes under a key in a lane is written by the `n`-th step already (R224).
DESIGN CHOICE, log entry 4. -/
opaque wordLands : Nat → Nat → Nat → Bool

/-- How many clk beyond one the `n`-th step takes.  DESIGN CHOICE, log entry 3. -/
opaque extraClk : Nat → Nat

/-- Whether a 4-byte word of new code is fetched as its new value before an ICINV (R227).  DESIGN CHOICE, log entry 7. -/
opaque fetchesNew : Nat → Nat → Bool
/-- From which earlier contents of memory the word at a location is fetched in the `n`-th step where no line of it is cached (R227).  DESIGN CHOICE, log entry 7. -/
opaque fetchesOld : Nat → Nat → Nat
/-- Whether the contents of memory as the `n`-th step ends may be found by a later fetch (R227).  DESIGN CHOICE, log entry 7. -/
opaque codeKept : Nat → Bool
/-- Which of `i` lines of a full set of an instruction cache goes in the `n`-th step (R51).  DESIGN CHOICE, log entry 7. -/
opaque fetchVictim : Nat → Nat → Nat

/-- Whether the `n`-th step reads the cached copy of the entry at a location, where the manual allows the copy or the
entry itself (R76, R102).  DESIGN CHOICE, log entry 14. -/
opaque readsCached : Nat → Nat → Bool
/-- Bytes of a save area that hold the device's own forms (R394): the area's VA and the offset. -/
opaque ownByte : Nat → Nat → Byte

/-- What an Izlyn switch and the other devices of a group make of this device's partial of one element (R151): the
contribution of other devices is not part of this device.  DESIGN CHOICE, log entry 15. -/
opaque switchSum : Nat → Nat → Word → Word

/-- Byte `i` of a broadcast whose root is another device (R321).  DESIGN CHOICE, log entry 15. -/
opaque peerByte : Nat → Nat → Byte

/-- FRCP of an FP32 pattern, before it is held to the bound of R240.  DESIGN CHOICE, log entry 11. -/
opaque frcp : Word → Word
/-- FRSQ of an FP32 pattern, before it is held to the bound of R240.  DESIGN CHOICE, log entry 11. -/
opaque frsq : Word → Word
/-- FEX2 of an FP32 pattern, before it is held to the bound of R240.  DESIGN CHOICE, log entry 11. -/
opaque fex2 : Word → Word
/-- FLG2 of an FP32 pattern, before it is held to the bound of R240.  DESIGN CHOICE, log entry 11. -/
opaque flg2 : Word → Word
/-- FSIN of an FP32 pattern, before it is held to the bound of R240.  DESIGN CHOICE, log entry 11. -/
opaque fsin : Word → Word
/-- FCOS of an FP32 pattern, before it is held to the bound of R240.  DESIGN CHOICE, log entry 11. -/
opaque fcos : Word → Word

/-- Whether the bytes of a firmware image carry a valid signature under the fused public key (R409).  DESIGN CHOICE, log entry 10. -/
opaque imageVerifies : List Byte → Bool
/-- The security version an image carries (R409).  DESIGN CHOICE, log entry 10. -/
opaque imageVersion : List Byte → Nat
/-- The fused minimum security version (R409).  DESIGN CHOICE, log entry 10. -/
opaque fusedMinimum : Nat
/-- The firmware image that a slot holds when the device leaves manufacture (R408, R409).  DESIGN CHOICE, log entry 10. -/
opaque factoryImage : Nat → List Byte
/-- The SHA-256 digest of some bytes (R409, R410).  DESIGN CHOICE, log entry 10. -/
opaque sha256 : List Byte → BitVec 256
/-- The 29,792-byte signature made with the device identity key (R410, R416), as byte `i` of the signature of some
bytes.  DESIGN CHOICE, log entry 10. -/
opaque signature : List Byte → Nat → Byte
/-- The device identity certificate and public key (R416): byte `i`.  DESIGN CHOICE, log entry 10. -/
opaque identity : Nat → Byte
/-- Length of the identity reply, which MBSTAT.RLEN can hold (R416).  DESIGN CHOICE, log entry 10. -/
opaque identityLen : BitVec 32

/-- Which order of FP32 operations evaluates a depth plane: the manual says "in a fixed order" and does not give it (R367).  DESIGN CHOICE,
log entry 13. -/
opaque depthForm : Nat

/-- Which order of FP32 operations interpolates the vertex at which an edge crosses a clipping plane: the manual says "interpolated in FP32"
and gives no formula (R366).  DESIGN CHOICE, log entry 17. -/
opaque clipForm : Nat

/-- The texel and the part in 1/256 that a texture coordinate names which is a NaN, or an infinity under a wrapping mode
(R334).  DESIGN CHOICE, log entry 16. -/
opaque texelOf : Word → Int
opaque texelPart : Word → Nat

end Sys2Proof.Config
end

