-- ==== Sys2Proof/Machine/Codec.lean ====
section
/-! DEFINITION. The codecs of compressed lines (R103, R105, R108): the blocks of the constant, delta-bitplane and prefix
codecs, how each is expanded, and the canonical prefix codes of a table. -/
namespace Sys2Proof.Machine

/-! ## Bit streams, packed from bit 7 of each byte downward -/

/-- Up to eight bits as a byte, the first in bit 7, padded with zeros. -/
def byteOfBits (bs : List Bool) : Byte :=
  .ofNat 8 ((List.range 8).foldl (fun a i => 2 * a + (bs.getD i false).toNat) 0)

/-- A bit stream as bytes. -/
def packBits : Nat → List Bool → List Byte
  | 0, _ => []
  | n + 1, bs => byteOfBits (bs.take 8) :: packBits n (bs.drop 8)

/-- The bytes of a stream, padded to a whole byte. -/
def streamBytes (bs : List Bool) : List Byte := packBits ((bs.length + 7) / 8) bs

/-- The bits of some bytes. -/
def streamBits (bs : List Byte) : List Bool :=
  bs.flatMap fun b => (List.range 8).map fun i => b.getLsbD (7 - i)

/-- Bit `i` of a number. -/
def natBit (v i : Nat) : Bool := v / 2 ^ i % 2 == 1

/-! ## The block header -/

/-- The 32-bit header of a block, little-endian. -/
def blockHeader (codec exp nsec elem tgen k : Nat) : List Byte :=
  let h := codec * 2 ^ 30 + exp * 2 ^ 28 + nsec * 2 ^ 26 + elem * 2 ^ 24 + tgen * 2 ^ 20 + k * 2 ^ 14
  (List.range 4).map fun i => .ofNat 8 (h / 2 ^ (8 * i))

/-- The header word of a block. -/
def headerOf (block : List Byte) : Nat := (List.range 4).foldr (fun i a => (block.getD i 0).toNat + 256 * a) 0

def blockCodec (block : List Byte) : Nat := headerOf block / 2 ^ 30 % 4
def blockExp (block : List Byte) : Nat := headerOf block / 2 ^ 28 % 4
def blockNsec (block : List Byte) : Nat := headerOf block / 2 ^ 26 % 4
def blockElem (block : List Byte) : Nat := headerOf block / 2 ^ 24 % 4
def blockTgen (block : List Byte) : Nat := headerOf block / 2 ^ 20 % 16
def blockK (block : List Byte) : Nat := headerOf block / 2 ^ 14 % 64

/-- Sectors a block of some bytes takes, minus one. -/
def nsecOf (size : Nat) : Nat := (size + 63) / 64 - 1

/-! ## Constant codec -/

/-- The constant block of a line, if every word is the same. -/
def encConst (exp : Nat) (line : List Byte) : Option (List Byte) :=
  let w := line.take 4
  if (List.range 256).all fun i => line.getD i 0 == w.getD (i % 4) 0 then some (blockHeader 0 exp 0 0 0 0 ++ w) else none

/-- The line of a constant word. -/
def expandConst (w : List Byte) : List Byte := (List.range 256).map fun i => w.getD (i % 4) 0

/-! ## Delta-bitplane codec -/

/-- The little-endian elements of `w` bits of a line. -/
def elements (w : Nat) (line : List Byte) : List Nat :=
  (List.range (2048 / w)).map fun i =>
    (List.range (w / 8)).foldr (fun j a => (line.getD (i * (w / 8) + j) 0).toNat + 256 * a) 0

/-- The zigzag of a difference modulo 2^w: (d << 1) xor (d >>arith (w - 1)). -/
def zigzag (w d : Nat) : Nat := (2 * d % 2 ^ w) ^^^ (if 2 ^ (w - 1) ≤ d then 2 ^ w - 1 else 0)
/-- The difference of a zigzag: (z >> 1) xor -(z and 1). -/
def unzigzag (w z : Nat) : Nat := (z / 2) ^^^ (if z % 2 = 1 then 2 ^ w - 1 else 0)

/-- The zigzags z(1) … z(n-1) of some elements. -/
def zigzags (w : Nat) : List Nat → List Nat
  | a :: b :: t => zigzag w ((b + 2 ^ w - a) % 2 ^ w) :: zigzags w (b :: t)
  | _ => []

/-- The bit length of a number below 2^32. -/
def bitLength (v : Nat) : Nat := ((List.range 33).find? fun k => v < 2 ^ k).getD 33

/-- The delta block of a line. -/
def encDelta (exp elem : Nat) (line : List Byte) : List Byte :=
  let w := 8 * 2 ^ elem
  let zs := zigzags w (elements w line)
  let k := bitLength (zs.foldl max 0)
  let planes := (List.range k).flatMap fun p => zs.map fun z => natBit z (k - 1 - p)
  let body := line.take (w / 8) ++ streamBytes planes
  blockHeader 1 exp (nsecOf (4 + body.length)) elem 0 k ++ body

/-- The elements recovered from the first one and the zigzags. -/
def undelta (w : Nat) : Nat → List Nat → List Nat
  | e, [] => [e]
  | e, z :: zs => e :: undelta w ((e + unzigzag w z) % 2 ^ w) zs

/-- The line of a delta body. -/
def expandDelta (elem k : Nat) (body : List Byte) : List Byte :=
  let w := 8 * 2 ^ elem
  let n := 2048 / w
  let e0 := (List.range (w / 8)).foldr (fun j a => (body.getD j 0).toNat + 256 * a) 0
  let bits := streamBits (body.drop (w / 8))
  let zs := (List.range (n - 1)).map fun i =>
    (List.range k).foldl (fun a p => 2 * a + (bits.getD (p * (n - 1) + i) false).toNat) 0
  (undelta w e0 zs).flatMap fun e => (List.range (w / 8)).map fun j => .ofNat 8 (e / 2 ^ (8 * j))

/-! ## Prefix codec (R105) -/

/-- Symbols with a code of some length. -/
def lenCount (lens : List Nat) (len : Nat) : Nat := lens.countP fun l => l == len && len != 0

/-- The first code of each length, from 1. -/
def firstCode (lens : List Nat) : Nat → Nat
  | 0 => 0
  | len + 1 => (firstCode lens len + lenCount lens len) * 2

/-- The code of a symbol: its length and value; none for a symbol without one. -/
def codeOf (lens : List Nat) (s : Nat) : Option (Nat × Nat) :=
  let len := lens.getD s 0
  if len = 0 then none else some (len, firstCode lens len + (lens.take s).countP fun l => l == len)

/-- A table that TABLD loads: lengths of at most 15, not all 0, Kraft sum at most 1. -/
def tableOk (lens : List Nat) : Bool :=
  lens.all (fun l => l ≤ 15) && lens.any (fun l => l != 0)
    && decide ((lens.map fun l => if l = 0 then 0 else 2 ^ (15 - l)).foldl (· + ·) 0 ≤ 2 ^ 15)

/-- The prefix stream of some bytes. -/
def prefixBits (lens : List Nat) : List Byte → Option (List Bool)
  | [] => some []
  | b :: t =>
    match codeOf lens b.toNat, prefixBits lens t with
    | some (len, code), some rest => some ((List.range len).map (fun i => natBit code (len - 1 - i)) ++ rest)
    | _, _ => none

/-- The prefix block of a line under a table of generation `tgen`. -/
def encPrefix (exp tgen : Nat) (lens : List Nat) (line : List Byte) : Option (List Byte) :=
  (prefixBits lens line).map fun bs =>
    let body := streamBytes bs
    blockHeader 2 exp (nsecOf (4 + body.length)) 0 tgen 0 ++ body

/-- The symbol a code names. -/
def symbolOf (lens : List Nat) (len code : Nat) : Option Nat :=
  (List.range 256).find? fun s => codeOf lens s == some (len, code)

/-- Decode `n` symbols of a stream; `len` and `code` are the bits of the symbol under way. -/
def prefixSyms (lens : List Nat) : Nat → Nat → Nat → List Bool → Option (List Byte)
  | 0, _, _, _ => some []
  | _ + 1, _, _, [] => none
  | n + 1, len, code, b :: bs =>
    let code' := 2 * code + b.toNat
    match symbolOf lens (len + 1) code' with
    | some s => (prefixSyms lens n 0 0 bs).map fun r => .ofNat 8 s :: r
    | none => prefixSyms lens (n + 1) (len + 1) code' bs

/-! ## Lines -/

/-- The block a write-back chooses (R108): the smallest, constant before delta before prefix; none if no block fits in three
sectors. -/
def encodeLine (exp : Nat) (const delta : Bool) (elem : Nat) (pre : Option (Nat × List Nat)) (line : List Byte) :
    Option (List Byte) :=
  let c := if const then (encConst exp line).toList else []
  let d := if delta && elem != 3 then [encDelta exp elem line] else []
  let p := match pre with
    | some (tgen, lens) => (encPrefix exp tgen lens line).toList
    | none => []
  let fits := (c ++ d ++ p).filter fun b => decide (b.length ≤ 192)
  ([0, 1, 2].filterMap fun n => fits.find? fun b => nsecOf b.length == n).head?

/-- The plain form of a block; none where it does not decode (R103).  `lens` is the table of its generation. -/
def expandBlock (lens : List Nat) (block : List Byte) : Option (List Byte) :=
  let body := block.drop 4
  match blockCodec block with
  | 0 => some (expandConst body)
  | 1 => if blockElem block = 3 then none else some (expandDelta (blockElem block) (blockK block) body)
  | 2 => prefixSyms lens 256 0 0 (streamBits body)
  | _ => none

end Sys2Proof.Machine
end

