-- ==== Sys2Proof/Machine/Sparse.lean ====
section
/-! DEFINITION. Sparse storage in one canonical form: a list of keys and values with keys strictly rising and no value
equal to the one an unlisted key reads as.  Every register file, table and memory of the machine is kept this way. -/
namespace Sys2Proof.Machine

/-- A map from numbers, listed by rising key. -/
abbrev Sparse (α : Type) := List (Nat × α)

/-- The value listed for a key, or `d`. -/
def Sparse.get {α : Type} (d : α) : Sparse α → Nat → α
  | [], _ => d
  | (k, v) :: t, i => if i = k then v else Sparse.get d t i

/-- Insert or replace the entry of a key, in order. -/
def Sparse.put {α : Type} (i : Nat) (v : α) : Sparse α → Sparse α
  | [] => [(i, v)]
  | (k, w) :: t => if i = k then (i, v) :: t else if i < k then (i, v) :: (k, w) :: t else (k, w) :: Sparse.put i v t

/-- Remove the entry of a key. -/
def Sparse.drop {α : Type} (i : Nat) (m : Sparse α) : Sparse α := m.filter fun kv => kv.1 != i

/-- Write a value, keeping the canonical form: the default is never listed. -/
def Sparse.set {α : Type} [DecidableEq α] (d : α) (m : Sparse α) (i : Nat) (v : α) : Sparse α :=
  if v = d then Sparse.drop i m else Sparse.put i v m

/-- The values of a function at the keys below `n`, in the canonical form. -/
def Sparse.ofFn {α : Type} [DecidableEq α] (d : α) (n : Nat) (f : Nat → α) : Sparse α :=
  (List.range n).filterMap fun k => if f k = d then none else some (k, f k)

/-- The canonical form: keys strictly rising above `lo`, no default listed. -/
def Sparse.wfFrom {α : Type} [DecidableEq α] (d : α) : Nat → Sparse α → Bool
  | _, [] => true
  | lo, (k, v) :: t => lo ≤ k && v ≠ d && Sparse.wfFrom d (k + 1) t

/-- The canonical form of a sparse map. -/
abbrev Sparse.wf {α : Type} [DecidableEq α] (d : α) (m : Sparse α) : Bool := Sparse.wfFrom d 0 m

/-- Write `v` at each of the keys of a list, in order. -/
def Sparse.setAll {α : Type} [DecidableEq α] (d : α) (m : Sparse α) (kvs : List (Nat × α)) : Sparse α :=
  kvs.foldl (fun m kv => Sparse.set d m kv.1 kv.2) m

end Sys2Proof.Machine
end

