-- ==== Sys2Proof/Syntax.lean ====
section
/-! DEFINITION. The syntax of the machine: one constructor of `Instr` per row of the opcode table, the 160 instructions
(R214, R226) with typed fields, then the 85 events of the device, the host and the firmware. -/
namespace Sys2Proof

/-- The guard of an instruction (R215). -/
inductive Guard where
  | always
  | ifTrue (n : Fin 4)
  | ifFalse (n : Fin 4)
  deriving DecidableEq, Repr

/-- The hint field (R216). -/
structure Hint where
  yield : Bool
  stall : Fin 8
  reuseA : Bool
  reuseB : Bool
  deriving DecidableEq, Repr

/-- What every instruction carries beside its own fields: guard and hints (R214). -/
structure Hdr where
  guard : Guard
  hint : Hint
  deriving DecidableEq, Repr

/-- An operand code of R217. -/
inductive Operand where
  | v (n : Fin 128)
  | k (n : Fin 64)
  | l (n : Fin 4)
  | o (n : Fin 8)
  | zero
  | laneid
  | f (n : Fin 4)
  | nf (n : Fin 4)
  | j (n : Fin 8)
  | x (n : Fin 4)
  | vx (n : Fin 4) (c : Fin 64)
  | const (n : Fin 64)
  | t (n : Fin 64)
  deriving DecidableEq, Repr

/-- The TYPE codes of R221, in code order. -/
inductive Ty where
  | i32 | n32 | i16x2 | n16x2 | f32 | h2 | b2 | i8 | n8 | i16 | n16 | b64 | b128 | f8a | f8b | d2p8
  deriving DecidableEq, Repr

/-- The scopes of R111, in code order. -/
inductive Scope where
  | wave | block | cluster | device | system
  deriving DecidableEq, Repr

/-- The ORD field of the memory layout (R220). -/
inductive Ord4 where
  | plain | acq | rel | ar
  deriving DecidableEq, Repr

/-- The memory layout of MOD (R220). -/
structure MemMod where
  ty : Ty
  ord : Ord4
  scr : Bool
  scope : Scope
  deriving DecidableEq, Repr

/-- The comparisons of R254. -/
inductive Cmp where
  | eq | ne | lt | le | gt | ge | num | nan
  deriving DecidableEq, Repr

/-- The source modifiers and saturation of R265. -/
structure FMod where
  nega : Bool
  negb : Bool
  negc : Bool
  absa : Bool
  absb : Bool
  sat : Bool
  deriving DecidableEq, Repr

/-- The directions of FRINT (R266). -/
inductive RoundDir where
  | rne | rdn | rup | rtz
  deriving DecidableEq, Repr

/-- The modes of SHFL (R272). -/
inductive ShflMode where
  | idx | up | down | xor
  deriving DecidableEq, Repr

/-- The modes of VOTE (R274). -/
inductive VoteMode where
  | all | any | ballot | eq
  deriving DecidableEq, Repr

/-- The operations of REDW and SCANW (R276). -/
inductive RedOp where
  | add | min | max | and | or | xor
  deriving DecidableEq, Repr

/-- The modes of QUAD (R279). -/
inductive QuadMode where
  | bcast | swapx | swapy | swapd
  deriving DecidableEq, Repr

/-- The barrier levels of R293. -/
inductive BarLevel where
  | bb | cb | gb
  deriving DecidableEq, Repr

/-- The operations of COLL (R321). -/
inductive CollOp where
  | allsum | sumto | bcast
  deriving DecidableEq, Repr

/-- The activations of R340 and R354. -/
inductive Act where
  | none | relu | relu6 | lrelu | clamp1
  deriving DecidableEq, Repr

/-- One step of the machine: an instruction of R226, or an event of the opcode table. -/
inductive Instr where
  /-- NOP (R289). -/
  | nop (h : Hdr)
  /-- TRAP (R299). -/
  | trap (h : Hdr) (code : BitVec 16)
  /-- BKPT (R299). -/
  | bkpt (h : Hdr) (code : BitVec 16)
  /-- YIELD (R289). -/
  | yieldI (h : Hdr)
  /-- SRD (R300). -/
  | srd (h : Hdr) (num : Byte) (d : Operand)
  /-- SWR (R300). -/
  | swr (h : Hdr) (num : Byte) (a : Operand)
  /-- ICINV (R303). -/
  | icinv (h : Hdr) (scope : Scope)
  /-- WSYNC (R304). -/
  | wsync (h : Hdr)
  /-- LNCH (R305). -/
  | lnch (h : Hdr) (d a : Operand)
  /-- BRA (R201, R283). -/
  | bra (h : Hdr) (target : Word)
  /-- BRC (R201). -/
  | brc (h : Hdr) (c : Operand) (target : Word)
  /-- JMASK (R203). -/
  | jmask (h : Hdr) (d : Operand)
  /-- JOIN (R204). -/
  | join (h : Hdr) (a : Operand)
  /-- IF (R197). -/
  | ifI (h : Hdr) (c : Operand) (target : Word)
  /-- ELSE (R197). -/
  | elseI (h : Hdr) (target : Word)
  /-- ENDIF (R197). -/
  | endifI (h : Hdr)
  /-- LOOP (R197). -/
  | loop (h : Hdr)
  /-- BREAK (R197, R198). -/
  | breakI (h : Hdr) (c : Operand) (n : BitVec 6)
  /-- CONT (R197, R198). -/
  | cont (h : Hdr) (c : Operand) (n : BitVec 6)
  /-- ENDLOOP (R197). -/
  | endloop (h : Hdr) (target : Word)
  /-- CALL (R284). -/
  | call (h : Hdr) (f4 : BitVec 5) (target : Word)
  /-- CALLI (R284). -/
  | calli (h : Hdr) (f4 : BitVec 5) (a b : Operand)
  /-- RET (R287). -/
  | ret (h : Hdr)
  /-- EXIT (R289). -/
  | exit (h : Hdr)
  /-- WAITC (R225). -/
  | waitc (h : Hdr) (ld st cp tl : BitVec 6)
  /-- TWAIT (R290). -/
  | twait (h : Hdr) (any : Bool) (a : Operand)
  /-- TFIRST (R290). -/
  | tfirst (h : Hdr) (d a : Operand)
  /-- BAR_ARRIVE (R293). -/
  | barArrive (h : Hdr) (lvl : BarLevel) (n : BitVec 4)
  /-- BAR_WAIT (R293). -/
  | barWait (h : Hdr) (lvl : BarLevel) (n : BitVec 4) (a : Operand)
  /-- BAR_SYNC (R293). -/
  | barSync (h : Hdr) (lvl : BarLevel) (n : BitVec 4)
  /-- BARPH (R296). -/
  | barph (h : Hdr) (lvl : BarLevel) (n : BitVec 4) (d : Operand)
  /-- IADD (R251). -/
  | iadd (h : Hdr) (ty : Ty) (sat : Bool) (d a b : Operand)
  /-- IADDC (R252). -/
  | iaddc (h : Hdr) (ty : Ty) (sub : Bool) (d a b c : Operand)
  /-- ISUB (R251). -/
  | isub (h : Hdr) (ty : Ty) (sat : Bool) (d a b : Operand)
  /-- IMUL (R251). -/
  | imul (h : Hdr) (ty : Ty) (d a b : Operand)
  /-- IMULH (R251). -/
  | imulh (h : Hdr) (ty : Ty) (d a b : Operand)
  /-- IMAD (R251). -/
  | imad (h : Hdr) (ty : Ty) (sat : Bool) (d a b c : Operand)
  /-- IADD64 (R253). -/
  | iadd64 (h : Hdr) (ty : Ty) (d a b : Operand)
  /-- IMAD64 (R253). -/
  | imad64 (h : Hdr) (ty : Ty) (d a b c : Operand)
  /-- IMIN (R251). -/
  | imin (h : Hdr) (ty : Ty) (d a b : Operand)
  /-- IMAX (R251). -/
  | imax (h : Hdr) (ty : Ty) (d a b : Operand)
  /-- IABS (R251). -/
  | iabs (h : Hdr) (ty : Ty) (sat : Bool) (d a : Operand)
  /-- ICMP (R254). -/
  | icmp (h : Hdr) (ty : Ty) (cond : Cmp) (d a b : Operand)
  /-- ISEL (R255). -/
  | isel (h : Hdr) (ty : Ty) (d a b c : Operand)
  /-- IDOT4 (R256). -/
  | idot4 (h : Hdr) (ty : Ty) (sat : Bool) (d a b c : Operand)
  /-- MOV (R257). -/
  | mov (h : Hdr) (ty : Ty) (d a : Operand)
  /-- MOVI (R257). -/
  | movi (h : Hdr) (ty : Ty) (d : Operand) (imm : Word)
  /-- SHL (R258). -/
  | shl (h : Hdr) (ty : Ty) (d a b : Operand)
  /-- SHR (R258). -/
  | shr (h : Hdr) (ty : Ty) (d a b : Operand)
  /-- SAR (R258). -/
  | sar (h : Hdr) (ty : Ty) (d a b : Operand)
  /-- ROTL (R258). -/
  | rotl (h : Hdr) (ty : Ty) (d a b : Operand)
  /-- FSHL (R259). -/
  | fshl (h : Hdr) (ty : Ty) (d a b c : Operand)
  /-- FSHR (R259). -/
  | fshr (h : Hdr) (ty : Ty) (d a b c : Operand)
  /-- AND (R260). -/
  | and (h : Hdr) (ty : Ty) (d a b : Operand)
  /-- OR (R260). -/
  | or (h : Hdr) (ty : Ty) (d a b : Operand)
  /-- XOR (R260). -/
  | xor (h : Hdr) (ty : Ty) (d a b : Operand)
  /-- ANDN (R260). -/
  | andn (h : Hdr) (ty : Ty) (d a b : Operand)
  /-- NOT (R260). -/
  | not (h : Hdr) (ty : Ty) (d a : Operand)
  /-- BFX (R261). -/
  | bfx (h : Hdr) (ty : Ty) (d a b : Operand)
  /-- BFI (R261). -/
  | bfi (h : Hdr) (ty : Ty) (d a b c : Operand)
  /-- CLZ (R262). -/
  | clz (h : Hdr) (ty : Ty) (d a : Operand)
  /-- CTZ (R262). -/
  | ctz (h : Hdr) (ty : Ty) (d a : Operand)
  /-- POPC (R262). -/
  | popc (h : Hdr) (ty : Ty) (d a : Operand)
  /-- BREV (R262). -/
  | brev (h : Hdr) (ty : Ty) (d a : Operand)
  /-- BILV (R263). -/
  | bilv (h : Hdr) (ty : Ty) (d a b : Operand)
  /-- BDIL (R263). -/
  | bdil (h : Hdr) (ty : Ty) (d a : Operand)
  /-- PRMT (R264). -/
  | prmt (h : Hdr) (ty : Ty) (d a b c : Operand)
  /-- FADD (R265). -/
  | fadd (h : Hdr) (ty : Ty) (m : FMod) (d a b : Operand)
  /-- FSUB (R265). -/
  | fsub (h : Hdr) (ty : Ty) (m : FMod) (d a b : Operand)
  /-- FMUL (R265). -/
  | fmul (h : Hdr) (ty : Ty) (m : FMod) (d a b : Operand)
  /-- FFMA (R265). -/
  | ffma (h : Hdr) (ty : Ty) (m : FMod) (d a b c : Operand)
  /-- FMIN (R265). -/
  | fmin (h : Hdr) (ty : Ty) (m : FMod) (d a b : Operand)
  /-- FMAX (R265). -/
  | fmax (h : Hdr) (ty : Ty) (m : FMod) (d a b : Operand)
  /-- FCMP (R254). -/
  | fcmp (h : Hdr) (ty : Ty) (unord : Bool) (cond : Cmp) (d a b : Operand)
  /-- FRINT (R266). -/
  | frint (h : Hdr) (ty : Ty) (dir : RoundDir) (d a : Operand)
  /-- HADD2 (R267). -/
  | hadd2 (h : Hdr) (ty : Ty) (m : FMod) (d a b : Operand)
  /-- HMUL2 (R267). -/
  | hmul2 (h : Hdr) (ty : Ty) (m : FMod) (d a b : Operand)
  /-- HFMA2 (R267). -/
  | hfma2 (h : Hdr) (ty : Ty) (m : FMod) (d a b c : Operand)
  /-- HMIN2 (R267). -/
  | hmin2 (h : Hdr) (ty : Ty) (m : FMod) (d a b : Operand)
  /-- HMAX2 (R267). -/
  | hmax2 (h : Hdr) (ty : Ty) (m : FMod) (d a b : Operand)
  /-- FRCP (R268). -/
  | frcp (h : Hdr) (ty : Ty) (d a : Operand)
  /-- FRSQ (R268). -/
  | frsq (h : Hdr) (ty : Ty) (d a : Operand)
  /-- FSQRT (R268). -/
  | fsqrt (h : Hdr) (ty : Ty) (d a : Operand)
  /-- FEX2 (R268). -/
  | fex2 (h : Hdr) (ty : Ty) (d a : Operand)
  /-- FLG2 (R268). -/
  | flg2 (h : Hdr) (ty : Ty) (d a : Operand)
  /-- FSIN (R268). -/
  | fsin (h : Hdr) (ty : Ty) (d a : Operand)
  /-- FCOS (R268). -/
  | fcos (h : Hdr) (ty : Ty) (d a : Operand)
  /-- CVT (R269). -/
  | cvt (h : Hdr) (dst src : Ty) (hi : Bool) (d a : Operand)
  /-- PACK8 (R270). -/
  | pack8 (h : Hdr) (ty : Ty) (hi : Bool) (d a b c : Operand)
  /-- UNPK8 (R270). -/
  | unpk8 (h : Hdr) (ty : Ty) (sel : BitVec 2) (d a : Operand)
  /-- PACKD (R270). -/
  | packd (h : Hdr) (ty : Ty) (d a b : Operand)
  /-- SHFL (R272). -/
  | shfl (h : Hdr) (ty : Ty) (mode : ShflMode) (d a b : Operand)
  /-- VOTE (R274). -/
  | vote (h : Hdr) (ty : Ty) (mode : VoteMode) (d a : Operand)
  /-- MATCH (R275). -/
  | matchI (h : Hdr) (ty : Ty) (d a : Operand)
  /-- REDW (R276). -/
  | redw (h : Hdr) (ty : Ty) (op : RedOp) (d a : Operand)
  /-- SCANW (R277). -/
  | scanw (h : Hdr) (ty : Ty) (op : RedOp) (excl : Bool) (d a : Operand)
  /-- DDX (R278). -/
  | ddx (h : Hdr) (ty : Ty) (d a : Operand)
  /-- DDY (R278). -/
  | ddy (h : Hdr) (ty : Ty) (d a : Operand)
  /-- QUAD (R279). -/
  | quad (h : Hdr) (ty : Ty) (mode : QuadMode) (n : BitVec 2) (d a : Operand)
  /-- RDLANE (R273). -/
  | rdlane (h : Hdr) (ty : Ty) (d a b : Operand)
  /-- LD (R308). -/
  | ld (h : Hdr) (m : MemMod) (d a b : Operand) (off : Word)
  /-- ST (R308). -/
  | st (h : Hdr) (m : MemMod) (d a b : Operand) (off : Word)
  /-- LDP (R311). -/
  | ldp (h : Hdr) (ty : Ty) (n : BitVec 4) (off : BitVec 28) (d a : Operand)
  /-- DISCARD (R315). -/
  | discard (h : Hdr) (d a b : Operand) (off : Word)
  /-- PREF (R316). -/
  | pref (h : Hdr) (l2 : Bool) (a b : Operand) (off : Word)
  /-- ATOM_ADD (R312). -/
  | atomAdd (h : Hdr) (m : MemMod) (d a b : Operand) (off : BitVec 12) (x : Operand)
  /-- ATOM_MIN (R312). -/
  | atomMin (h : Hdr) (m : MemMod) (d a b : Operand) (off : BitVec 12) (x : Operand)
  /-- ATOM_MAX (R312). -/
  | atomMax (h : Hdr) (m : MemMod) (d a b : Operand) (off : BitVec 12) (x : Operand)
  /-- ATOM_AND (R312). -/
  | atomAnd (h : Hdr) (m : MemMod) (d a b : Operand) (off : BitVec 12) (x : Operand)
  /-- ATOM_OR (R312). -/
  | atomOr (h : Hdr) (m : MemMod) (d a b : Operand) (off : BitVec 12) (x : Operand)
  /-- ATOM_XOR (R312). -/
  | atomXor (h : Hdr) (m : MemMod) (d a b : Operand) (off : BitVec 12) (x : Operand)
  /-- ATOM_EXCH (R312). -/
  | atomExch (h : Hdr) (m : MemMod) (d a b : Operand) (off : BitVec 12) (x : Operand)
  /-- ATOM_CAS (R312). -/
  | atomCas (h : Hdr) (m : MemMod) (d a b : Operand) (off : BitVec 12) (cmp x : Operand)
  /-- ATOM_FADD_F32 (R312). -/
  | atomFaddF32 (h : Hdr) (m : MemMod) (d a b : Operand) (off : BitVec 12) (x : Operand)
  /-- ATOM_FADD_B2 (R312). -/
  | atomFaddB2 (h : Hdr) (m : MemMod) (d a b : Operand) (off : BitVec 12) (x : Operand)
  /-- RED_ADD (R312). -/
  | redAdd (h : Hdr) (m : MemMod) (a b : Operand) (off : BitVec 12) (x : Operand)
  /-- RED_MIN (R312). -/
  | redMin (h : Hdr) (m : MemMod) (a b : Operand) (off : BitVec 12) (x : Operand)
  /-- RED_MAX (R312). -/
  | redMax (h : Hdr) (m : MemMod) (a b : Operand) (off : BitVec 12) (x : Operand)
  /-- RED_AND (R312). -/
  | redAnd (h : Hdr) (m : MemMod) (a b : Operand) (off : BitVec 12) (x : Operand)
  /-- RED_OR (R312). -/
  | redOr (h : Hdr) (m : MemMod) (a b : Operand) (off : BitVec 12) (x : Operand)
  /-- RED_XOR (R312). -/
  | redXor (h : Hdr) (m : MemMod) (a b : Operand) (off : BitVec 12) (x : Operand)
  /-- RED_FADD_F32 (R312). -/
  | redFaddF32 (h : Hdr) (m : MemMod) (a b : Operand) (off : BitVec 12) (x : Operand)
  /-- RED_FADD_B2 (R312). -/
  | redFaddB2 (h : Hdr) (m : MemMod) (a b : Operand) (off : BitVec 12) (x : Operand)
  /-- FENCE (R314). -/
  | fence (h : Hdr) (m : MemMod)
  /-- FENCEO (R314). -/
  | fenceo (h : Hdr)
  /-- FENCER (R314). -/
  | fencer (h : Hdr) (m : MemMod)
  /-- COPY (R318). -/
  | copy (h : Hdr) (dscr sscr : Bool) (d a b : Operand) (tag : BitVec 6)
  /-- COPYM (R319). -/
  | copym (h : Hdr) (d a b : Operand) (tag : BitVec 6) (mask bar : BitVec 4)
  /-- GATHER (R320). -/
  | gather (h : Hdr) (iscr : Bool) (d a b : Operand) (tag : BitVec 6) (row : BitVec 12) (count : BitVec 14)
  /-- COLL (R321). -/
  | coll (h : Hdr) (ty : Ty) (op : CollOp) (sscr dscr : Bool) (d a b : Operand) (tag group : BitVec 6)
  /-- QENQ (R322). -/
  | qenq (h : Hdr) (rs : BitVec 2) (d b vr : Operand)
  /-- QDEQ (R322). -/
  | qdeq (h : Hdr) (rs : BitVec 2) (d b vr : Operand)
  /-- QSTAT (R322). -/
  | qstat (h : Hdr) (d b : Operand)
  /-- SPAWN (R324). -/
  | spawn (h : Hdr) (d a b : Operand)
  /-- OSCLOOK (R326). -/
  | osclook (h : Hdr) (staleok : Bool) (d a : Operand)
  /-- OSCWAIT (R327). -/
  | oscwait (h : Hdr) (d a b : Operand)
  /-- OSCFILL (R328). -/
  | oscfill (h : Hdr) (d a : Operand)
  /-- OSCINV (R329). -/
  | oscinv (h : Hdr) (a : Operand)
  /-- OSCTICK (R329). -/
  | osctick (h : Hdr)
  /-- OSCPROV (R330). -/
  | oscprov (h : Hdr) (d a : Operand)
  /-- TEX (R332). -/
  | tex (h : Hdr) (cone : Bool) (d a b vg : Operand)
  /-- TEXQ_SIZE (R332, R335). -/
  | texqSize (h : Hdr) (d a b : Operand)
  /-- TEXQ_LOD (R332, R335). -/
  | texqLod (h : Hdr) (cone : Bool) (d a b vg : Operand)
  /-- TRACE (R337). -/
  | trace (h : Hdr) (a : Operand) (tag : BitVec 6)
  /-- MATEV (R337). -/
  | matev (h : Hdr) (a : Operand) (tag : BitVec 6)
  /-- VEMIT (R338). -/
  | vemit (h : Hdr) (a b draw : Operand)
  /-- TDEF (R348). -/
  | tdef (h : Hdr) (d a : Operand)
  /-- TQRY (R349). -/
  | tqry (h : Hdr) (d a : Operand)
  /-- TMMA (R350). -/
  | tmma (h : Hdr) (bt : Bool) (d a b : Operand) (tag : BitVec 6)
  /-- TMMD (R350). -/
  | tmmd (h : Hdr) (bt : Bool) (d a b : Operand) (tag : BitVec 6)
  /-- TVMM (R351). -/
  | tvmm (h : Hdr) (d a b : Operand) (tag : BitVec 6) (tw : Operand)
  /-- TMMS (R355). -/
  | tmms (h : Hdr) (d a b : Operand) (tag : BitVec 6)
  /-- TZERO (R352). -/
  | tzero (h : Hdr) (d : Operand)
  /-- TACCLD (R353). -/
  | taccld (h : Hdr) (d a : Operand) (tag : BitVec 6)
  /-- TACCST (R354). -/
  | taccst (h : Hdr) (act : Act) (d a b : Operand) (tag : BitVec 6) (scale : Operand)
  /-- TFFT (R356). -/
  | tfft (h : Hdr) (d a : Operand) (tag : BitVec 6)
  /-- TIFT (R356). -/
  | tift (h : Hdr) (d a : Operand) (tag : BitVec 6)
  /-- XFM (R359). -/
  | xfm (h : Hdr) (tr : Bool) (d a : Operand) (tag : BitVec 6)
  /-- XCHAIN (R358). -/
  | xchain (h : Hdr) (act : Act) (d a : Operand) (tag : BitVec 6)
  /-- TABLD (R361). -/
  | tabld (h : Hdr) (a : Operand) (tag : BitVec 6) (gen : BitVec 4)
  -- the events of the opcode table, which have no encoding
  /-- COUNTER_DONE (R223: the counted instruction `idx` outstanding in wave `wave` finishes its part for `lanes`). -/
  | counterDone (wave idx : Nat) (lanes : LaneMask)
  /-- ENGINE_COMPLETION (R139: every write of engine operation `op` has been performed). -/
  | engineCompletion (op : Nat)
  /-- FAILED_OPERATION (R140, R146: engine operation `op` ends failed after performing the first `done` of its writes, counted in bytes or rows). -/
  | failedOperation (op done : Nat)
  /-- COPYM_ARRIVAL (R319: the copy of multicast `op` into its receiving block number `idx` is complete). -/
  | copymArrival (op idx : Nat)
  /-- FAULT_RECORD_POST (R35: the oldest held fault record is written to the fault queue). -/
  | faultRecordPost
  /-- FAULTRESP_RETRY (R35: the driver answers retry). -/
  | faultrespRetry (id : Word)
  /-- FAULTRESP_CANCEL (R36: the driver answers cancel). -/
  | faultrespCancel (id : Word)
  /-- TLBINV_EVERYTHING (R30: command of scope 0). -/
  | tlbinvEverything
  /-- TLBINV_VM (R30: command of scope 1). -/
  | tlbinvVm (vm : BitVec 5)
  /-- TLBINV_ASID (R30: command of scope 2). -/
  | tlbinvAsid (vm : BitVec 5) (asid : BitVec 16)
  /-- TLBINV_VA_RANGE (R30: command of scope 3, from TLBINVVA). -/
  | tlbinvVaRange (vm : BitVec 5) (asid : BitVec 16) (pages : Word)
  /-- TLBINV_CONTEXT (R30: command of scope 4). -/
  | tlbinvContext (vm : BitVec 5)
  /-- TLBINV_ERR_CLEAR (R30: a write with bit 62 set). -/
  | tlbinvErrClear
  /-- TLBINV_DONE (R31: the invalidation in progress finishes). -/
  | tlbinvDone
  /-- PRI_RESPONSE (R38: the answer to page request `idx`; on success the host page is `page`). -/
  | priResponse (idx : Nat) (success : Bool) (page : BitVec 40)
  /-- TTCTL_COMMIT (R64: COMMIT is written 1). -/
  | ttctlCommit
  /-- TIMETABLE_COPY (R64: the shadows are copied at slot 0). -/
  | timetableCopy
  /-- CLASS_IDLE (R56: a class becomes idle on a die). -/
  | classIdle (die : BitVec 3) (cls : BitVec 2)
  /-- NOC_FLIT_RECEIVE (R66: the flit of a class under way on `link` reaches its receiver, whose class buffer `left` flits have left since). -/
  | nocFlitReceive (link : Nat) (cls : BitVec 2) (left : Nat) (crcOk : Bool)
  /-- NOC_RETRY (R66: the sender of `link` resends the class's flits from the one the retry names). -/
  | nocRetry (link : Nat) (cls : BitVec 2)
  /-- PATROL_SCRUB (R69, R70: one 32-byte granule is scrubbed, with no error, a corrected or an uncorrectable one). -/
  | patrolScrub (die : BitVec 3) (granule : Nat) (outcome : BitVec 2)
  /-- HBM_REFRESH (R68: a channel is refreshed). -/
  | hbmRefresh (die : BitVec 3) (channel : BitVec 6)
  /-- CMPCTL_SYNC (R100: SYNC is written 1). -/
  | cmpctlSync
  /-- CMPCTL_SYNC_DONE (R100: every cached header and map entry is dropped). -/
  | cmpctlSyncDone
  /-- TABLE_SLOT_REPLACE (R106: a waiting replacement takes its slot). -/
  | tableSlotReplace (expander : Nat)
  /-- LANDING_ENABLE (R89, R90: LHEAP is written with EN = 1). -/
  | landingEnable (val : DWord)
  /-- LANDING_INIT_DONE (R90: the last line-map word is written). -/
  | landingInitDone
  /-- LANDING_DISABLE (R89: LHEAP is written with EN = 0). -/
  | landingDisable (val : DWord)
  /-- LANDING_DISABLE_DONE (R89: the disable has been carried out). -/
  | landingDisableDone
  /-- OSCWAIT_TIMEOUT (R86 row 21: the timeout of parked lanes of an OSCWAIT). -/
  | oscwaitTimeout (wave idx : Nat) (lanes : LaneMask)
  /-- RAY_TIMEOUT (R97: RAYTMO of a parked ray). -/
  | rayTimeout (op ray : Nat)
  /-- RAY_RELOOKUP (R378: a ray given NOH looks up again). -/
  | rayRelookup (op ray : Nat)
  /-- QUEUE_POINTER_WRITE (R149: word 2 of a queue entry is written). -/
  | queuePointerWrite (fn : BitVec 5) (q : BitVec 8) (val : DWord)
  /-- QUEUE_COMMIT (R150: the oldest reserved record of a queue is written whole). -/
  | queueCommit (fn : BitVec 5) (q : BitVec 8)
  /-- COLL_JOIN_TIMEOUT (R407: a member does not join in time). -/
  | collJoinTimeout (group : BitVec 6)
  /-- COLL_GROUP_WRITE (R407: a word of a group entry is written). -/
  | collGroupWrite (group : BitVec 6) (word : BitVec 1) (val : DWord)
  /-- LQ_TAIL_WRITE (R382: LQPTR.TAIL is written). -/
  | lqTailWrite (fn : BitVec 5) (tail : Word)
  /-- LQCTL_ENABLE (R383: LQCTL is written with EN = 1). -/
  | lqctlEnable (fn : BitVec 5) (val : DWord)
  /-- LAUNCH_ACCEPT (R155, R383: the hub takes the next entry of a VM). -/
  | launchAccept (vm : BitVec 5)
  /-- BLOCK_PLACE (R384: the dispatch port of a core places one unit of work). -/
  | blockPlace (core : Nat)
  /-- GANG_RESERVE (R385: the highest-ranked gang of a class reserves a range). -/
  | gangReserve (cls : BitVec 2)
  /-- BLOCK_END (R148: a block ends). -/
  | blockEnd (block : Nat)
  /-- GRID_END (R173: a grid ends). -/
  | gridEnd (grid : Nat)
  /-- BERTH_SAIL (R164: a berth sails). -/
  | berthSail (core berth : Nat)
  /-- SAILED_WAVE_PLACE (R164: a sailed wave is placed). -/
  | sailedWavePlace (idx : Nat)
  /-- GOVERNOR_EVALUATION (R169: the governor evaluates its stages). -/
  | governorEvaluation (fn : BitVec 5)
  /-- GOVCTL_ENABLE (R168: GOVCTL is written with EN = 1). -/
  | govctlEnable (fn : BitVec 5) (val : DWord)
  /-- GOVCTL_DISABLE (R171: GOVCTL is written with EN = 0). -/
  | govctlDisable (fn : BitVec 5) (val : DWord)
  /-- SPILL_WRITE (R187: the Ferry of a core writes its oldest spilled frame). -/
  | spillWrite (core : Nat)
  /-- REFILL (R183, R187: a frame's data arrives and the RET completes). -/
  | refill (wave : Nat)
  /-- FRAME_RECORD_FETCH (R188: the newest overflowed record comes back on chip). -/
  | frameRecordFetch (wave : Nat)
  /-- PREEMPT_REQUEST (R391: PMTCTL is written with REQ = 1). -/
  | preemptRequest (fn : BitVec 5) (val : DWord)
  /-- PREEMPT_SAVE_DONE (R393: a selected block is saved; with the last one BUSY clears). -/
  | preemptSaveDone (fn : BitVec 5) (block : Nat)
  /-- SERVICE_HANDLER_START (R414: the service core takes the next trapped wave). -/
  | serviceHandlerStart (cluster : Nat)
  /-- RESUME (R399: command RESUME for the wave being handled). -/
  | resume (cluster : Nat)
  /-- KILLWAVE (R399: command KILLWAVE). -/
  | killwave (cluster : Nat)
  /-- KILLBLOCK (R399: command KILLBLOCK). -/
  | killblock (cluster : Nat)
  /-- WINDOW_WSYNC (R414: command 4, WSYNC). -/
  | windowWsync (cluster : Nat)
  /-- RANGE_LOCK_ENTRY_CLEAR (R144: V = 0 is written in an entry of a killed block). -/
  | rangeLockEntryClear (core entry : Nat)
  /-- LANDING_SET_SELECT (R415: the set selector is written). -/
  | landingSetSelect (cluster : Nat) (val : DWord)
  /-- RESERVATION_GRANT (R344: the free matrix engine grants an entry). -/
  | reservationGrant (cluster : Nat)
  /-- RESERVATION_PROMOTE (R344: an entry is promoted). -/
  | reservationPromote (cluster entry : Nat)
  /-- TRIANGLE_RASTERISE (R366-R368: rasteriser `q` rasterises its tiles of the oldest triangle of a wave that it has not taken). -/
  | triangleRasterise (grid wave : Nat) (q : BitVec 4)
  /-- RASTER_DONE (R370: the rasteriser arrives on each raster barrier). -/
  | rasterDone (grid : Nat)
  /-- CLUSTER_FENCE (R401: a cluster failing at run time is fenced). -/
  | clusterFence (cluster : Nat)
  /-- CHANNEL_RETIREMENT (R401: a channel's retirement is recorded). -/
  | channelRetirement (die : BitVec 3) (channel : BitVec 6)
  /-- DEVICE_RESET (R72, R401, R409: reset). -/
  | deviceReset
  /-- FATAL_ERROR (R413: a fatal error of cause 1-4). -/
  | fatalError (cause : BitVec 3)
  /-- HOST_BAR2_ACCESS (R403: a host access through BAR2; a read of `data.length` bytes). -/
  | hostBar2Access (fn : BitVec 5) (off : BitVec 36) (write : Bool) (data : List Byte)
  /-- IZLYN_PEER_ACCESS (R405, R406: a peer's load, store or atomic on this device; a load of `data.length` bytes). -/
  | izlynPeerAccess (port : BitVec 4) (pa : BitVec 44) (kind : BitVec 4) (data : List Byte)
  /-- IZLYN_LINK_TRAINING (R405: a port trains; the other side advertises a version, 0 for a training that fails). -/
  | izlynLinkTraining (port : BitVec 4) (theirs : Nat)
  /-- UMCOR_FAILOVER (R408: the active Umcor core fails). -/
  | umcorFailover
  /-- ATTEST (R410, R416: mailbox command 1). -/
  | attest (fn : BitVec 5)
  /-- IDENTITY (R416: mailbox command 2). -/
  | identity (fn : BitVec 5)
  /-- IMAGE (R409, R416: mailbox command 3). -/
  | image (fn : BitVec 5)
  /-- ACTIVATE (R416: mailbox command 4). -/
  | activate (fn : BitVec 5)
  /-- DUMP (R416: mailbox command 5). -/
  | dump (fn : BitVec 5)
  /-- MAILBOX_REPLY (R416: a command ends). -/
  | mailboxReply (fn : BitVec 5)
  /-- ERROR_LOG_RECORD (R411: the oldest waiting error record is written). -/
  | errorLogRecord
  /-- ERROR_AGGREGATION (R411: corrected-error counts are aggregated). -/
  | errorAggregation
  /-- REGISTER_WRITE (R5: a BAR0 register is written). -/
  | registerWrite (fn : BitVec 5) (off : BitVec 26) (val : DWord)
  /-- TRANSLATION_WALK_DONE (R17, R28: the walk a stalled wave waits for completes). -/
  | translationWalkDone (wave : Nat)
  /-- PCIE_LINK_TRAINING (R403: the host link trains at a width and a generation; the partner asks for flit mode). -/
  | pcieLinkTraining (up : Bool) (width rate : Nat) (flit : Bool)
  /-- PCIE_PORT_ERROR (R417: the host port reports an error). -/
  | pciePortError (status : DWord)
  /-- DEVICE_POWER_OFF (R412: power is lost). -/
  | devicePowerOff
  deriving DecidableEq, Repr

end Sys2Proof
end

