-- ==== Sys2Proof/Machine/State.lean ====
section
/-! DEFINITION. The state of the machine as plain data: every piece of state the manual gives it (INVENTORY.md, '## State'),
the reasons a step can stop, and the state after reset. -/
namespace Sys2Proof.Machine

/-! ## Waves -/

/-- A path of a wave: a slot record or a split-stack entry (R194, R211). -/
structure Path where
  mask : LaneMask := 0
  pc : DWord := 0
  depth : Nat := 0
  park : Bool := false
  pj : Fin 8 := 0
  deriving DecidableEq, Repr

/-- A PC slot (R194): a path, whether it is valid, whether it issued last (R200); whether its instruction waits, having found its
condition false (R281), that instruction's word, and what it read when it issued: the mask of a TWAIT (R290), or the turns of the barrier
that a BAR `.wait` waits on (R295); and the turns of the barrier when a BAR `.sync` arrived, whose parity is the phase it awaits (R298). -/
structure Slot where
  valid : Bool := false
  path : Path := {}
  last : Bool := false
  waiting : Bool := false
  word : IWord := 0
  held : Option DWord := none
  sync : Option Nat := none
  deriving DecidableEq, Repr

/-- A frame record (R185). -/
structure Frame where
  retpc : DWord
  fsz : Nat
  spilled : Bool
  sbase : Nat
  deriving DecidableEq, Repr

/-- A trap record (R396). -/
structure TrapRec where
  cause : Byte
  slotB : Bool
  mask : LaneMask
  pc : DWord
  detail : DWord
  iw : IWord
  deriving DecidableEq, Repr

/-- The dependence counters (R223). -/
inductive Ctr where
  | ld | st | cp | tl
  deriving DecidableEq, Repr

/-- One 32-bit register word, or one lane of a flag, that a counted instruction still has to write (R223). -/
structure PendWrite where
  lane : Nat
  key : Nat
  val : Word
  poison : Bool := false
  deriving DecidableEq, Repr

/-- A lane parked in OSCWAIT (R97, R327): the handle it waits on, the tag entry that holds its watcher slot, the keys of
its result group, and the clk of its timeout. -/
structure Parked where
  lane : Nat
  handle : Word
  entry : Nat
  dst : List Nat
  timeout : Nat
  deriving DecidableEq, Repr

/-- A counted instruction outstanding (R223): its counter, the lanes whose part is not done, what it will write, the
engine operation whose completion ends it, its PC, slot and word, for the loads of R392 that a pre-emption discards what
reissues it, and for a QENQ the records it has reserved: lane, queue and number (R150, R323). -/
structure Counted where
  ctr : Ctr
  lanes : LaneMask
  writes : List PendWrite := []
  op : Option Nat := none
  parked : List Parked := []
  again : Option Instr := none
  vals : List (Nat × List DWord) := []
  keys : List (Nat × Nat) := []
  discarded : Bool := false
  posts : List (Nat × Nat × Word) := []
  moved : Bool := false
  pc : DWord := 0
  slotB : Bool := false
  iw : IWord := 0
  deriving DecidableEq, Repr

/-- The kind of an access, as a fault record codes it (R34). -/
inductive Access where
  | load | store | atomic | fetch | engRead | engWrite | spill | refill
  deriving DecidableEq, Repr

/-- The space of a translation: global under an ASID, or context space (R9), there also the windows of a handler (R414). -/
structure Space where
  vm : Nat
  asid : BitVec 16
  ctx : Bool := false
  svc : Bool := false
  deriving DecidableEq, Repr

/-- A translation a wave waits for (R28, R208): its slot, the access, and the fault record it waits on once the walk has failed
(R35). -/
structure Stall where
  slotB : Bool
  space : Space
  va : Nat
  access : Access
  fault : Option Nat := none
  deriving DecidableEq, Repr

/-- Where a wave stands in its life. -/
inductive Life where
  | running | trapped | handled | saved | sailed | ended
  deriving DecidableEq, Repr

/-- A vertex of a triple that is not complete (R365): its draw ID, index and coordinates. -/
structure Vertex where
  draw : Nat
  idx : Word
  pos : List Word
  deriving DecidableEq, Repr

/-- A piece of work of a Window Ferry (R187, R188, R202): a frame's ring registers to a spill slot, a frame record to
the overflow region, a split-stack entry pushed or popped. -/
inductive FerryJob where
  | spill (wave : Nat) (frame : Nat) (sbase : Nat) (regs : List (List Word × BitVec 32))
  | record (wave : Nat) (k : Nat) (f : Frame)
  | push (wave : Nat) (k : Nat) (p : Path)
  | pop (wave : Nat) (k : Nat)
  deriving DecidableEq, Repr

/-- A wave (R174-R212, R223, R396).  `regs` holds the words of V (by ring position), O, L and K under the keys of
`Machine/Operands.lean`; `spec` the payload blocks (offset and bytes) of its open store window (R95); `jobs` the Ferry work
saved with it (R191); `ring` the RING field, which gives the ring size (R174). -/
structure Wave where
  life : Life := .running
  block : Nat := 0
  role : Fin 4 := 0
  num : Nat := 0
  ridx : Nat := 0
  spawned : Bool := false
  ring : Fin 7 := 0
  regs : Sparse Word := []
  poison : Sparse Bool := []
  xreg : Sparse Byte := []
  flag : Sparse LaneMask := []
  jreg : Sparse LaneMask := []
  nest : Sparse Nat := []
  launched : LaneMask := 0xFFFFFFFF
  exited : LaneMask := 0
  slotA : Slot := {}
  slotB : Slot := {}
  split : List Path := []
  splitMax : Nat := 0
  wb : Nat := 0
  frames : List Frame := []
  res : Nat := 0
  onchip : Nat := 0
  spillUnits : Nat := 0
  fwait : Bool := false
  deriv : Bool := false
  pwoob : Bool := false
  ldc : Nat := 0
  stc : Nat := 0
  cpc : Nat := 0
  tlc : Nat := 0
  counted : List (Nat × Counted) := []
  serial : Nat := 0
  spec : Option (List (Nat × Nat)) := none
  trap : Option TrapRec := none
  stalls : List Stall := []
  cancel : Option (Bool × Nat × DWord) := none
  ferryFault : Option Nat := none
  refilling : Bool := false
  refillB : Bool := false
  unwind : Option Nat := none
  jobs : List FerryJob := []
  part : Fin 32 := 0
  wslot : Fin 4 := 0
  age : Nat := 0
  young : Bool := false
  hold : Nat := 0
  ctx : Nat := 0
  triple : List Vertex := []
  emitted : Bool := false
  deriving DecidableEq, Repr

/-! ## Blocks and grids -/

/-- A hardware barrier (R161).  `turns` counts its completions: PHASE is its parity, and a waiter that has seen another count has seen
PHASE change, however often it has changed since (R295). -/
structure Barrier where
  expect : Nat := 0
  members : BitVec 4 := 0
  raster : Bool := false
  e : Nat := 0
  count : Nat := 0
  phase : Bool := false
  turns : Nat := 0
  deriving DecidableEq, Repr

/-- A tag error record (R140). -/
structure TagErr where
  engine : Nat
  cause : Nat
  kind : Nat
  addr : Nat
  deriving DecidableEq, Repr

/-- Where a block stands: resident on its core, saved, that of a sailed wave which a pre-emption found in its berth and that is still to be
saved (R164; whether it has its context area), or over with the reason it was killed. -/
inductive BlockLife where
  | resident | saved | unplaced (held : Bool) | ended | killed (cause : Byte)
  deriving DecidableEq, Repr

/-- A block (R152, R157). -/
structure Block where
  life : BlockLife := .resident
  grid : Nat := 0
  x : Nat := 0
  y : Nat := 0
  z : Nat := 0
  gang : Nat := 0
  rank : Nat := 0
  core : Nat := 0
  bslot : Fin 4 := 0
  waves : List Nat := []
  cls : Fin 4 := 0
  spawned : Bool := false
  tags : DWord := 0
  tpend : DWord := 0
  terr : DWord := 0
  tagErr : List (Nat × TagErr) := []
  tens : Sparse (BitVec 256) := []
  tensPoison : Sparse Bool := []
  bb : List Barrier := []
  scrBase : Nat := 0
  scrUnits : Nat := 0
  scratch : List Host.Cell := []
  scrPoison : Sparse Bool := []
  accUnits : Nat := 0
  accQuarter : Nat := 0
  accum : Sparse Word := []
  accPoison : Sparse Bool := []
  retreq : Bool := false
  area : Nat := 0
  ending : Bool := false
  halted : Bool := false
  saveFault : Option Nat := none
  svc : Bool := false
  deriving DecidableEq, Repr

/-- A berth in use (R163): its key, its descriptor, the four payload words of each lane in joining order, the clk of the first
lane, whether it has sailed and waits for its wave's placement (R164) and since when, and the block of its wave while a pre-emption that
selected it has not saved it (R391). -/
structure Berth where
  grid : Nat
  entry : DWord
  desc : Nat
  lanes : List (List Word)
  since : Nat
  sailed : Bool := false
  sailedAt : Nat := 0
  block : Option Nat := none
  deriving DecidableEq, Repr

/-- A triangle assembled by VEMIT (R365): its wave, DRAW and PRIM, its vertices, and the rasterisers that have not taken
their tiles of it yet (R368). -/
structure Triangle where
  wave : Nat
  draw : Nat
  prim : Word
  verts : List (List Word)
  left : BitVec 16 := 0xFFFF
  deriving DecidableEq, Repr

/-- Where a grid stands. -/
inductive GridLife where
  | active | ended
  deriving DecidableEq, Repr

/-- An accepted grid (R154, R155): its record, arguments and windows as read at acceptance, what has been placed, its
cluster barriers (one set of eight per gang and cluster) and grid barriers, and the contents of memory, oldest first, of which a
cache may hold a word for LDP (R26). -/
structure Grid where
  life : GridLife := .active
  vm : Nat := 0
  asid : BitVec 16 := 0
  record : List DWord := []
  args : List Word := []
  pw : List (DWord × Nat) := []
  raster : List DWord := []
  placed : Nat := 0
  ended : Nat := 0
  killed : Bool := false
  stopped : Bool := false
  cb : List ((Nat × Nat) × List Barrier) := []
  gb : List Barrier := []
  triangles : List Triangle := []
  cleared : BitVec 16 := 0
  rasterFault : List (Nat × Nat) := []
  rasterDone : Bool := false
  held : List (List Host.Cell) := []
  deriving DecidableEq, Repr

/-! ## Engines -/

/-- A range of bytes an operation locks, before rounding (R141, R142). -/
structure Range where
  dst : Bool
  space : Nat
  base : Nat
  size : Nat
  deriving DecidableEq, Repr

/-- An entry of a core's range-lock table (R144). -/
structure Lock where
  dst : Bool
  space : Nat
  block : Nat
  tag : Nat
  vm : Nat
  asid : BitVec 16
  base : Nat
  last : Nat
  op : Nat
  deriving DecidableEq, Repr

/-- Where an engine operation stands. -/
inductive OpLife where
  | running | done | dropped
  deriving DecidableEq, Repr

/-- Where a ray stands: it runs, it is parked in a watcher slot, it must look up again, or its record is written. -/
inductive RayLife where
  | running | parked | again | ended
  deriving DecidableEq, Repr

/-- The hit a ray has found (R374, R376): its parameters, what its leaf holds, and V0, V1 - V0 and V2 - V0. -/
structure RayHit where
  t : Word
  b1 : Word
  b2 : Word
  leaf : Nat
  obj : Nat
  mat : Nat
  prim : Nat := 0
  back : Bool
  width : Nat
  v0 : List Word := []
  e1 : List Word := []
  e2 : List Word := []
  deriving DecidableEq, Repr

/-- What the material step has formed before its lookup (R378): the key, the texel's offset in the payload, LAYERS, and the
indices and roughness of the material entry. -/
structure RayMat where
  key : Nat
  off : Nat
  layers : Nat
  ior : Word
  coatIor : Word
  coatRough : Word
  deriving DecidableEq, Repr

/-- A ray of a TRACE or MATEV that has begun (R377, R378, R446): the number of its record, its slot in the ray unit, its
record after the last completed bounce, its hit and material step, the tag entry it watches since a clk, what a wake brought
(result code, payload and its lines), and the output record that is to be written, with its poison. -/
structure Ray where
  idx : Nat
  slot : Nat
  lifeR : RayLife := .running
  words : List DWord := []
  hit : Option RayHit := none
  mat : Option RayMat := none
  entry : Nat := 0
  since : Nat := 0
  got : Option (Nat × Nat × Nat) := none
  out : List DWord := []
  poison : Bool := false
  deriving DecidableEq, Repr

/-- An entry of a cluster's matrix reservation table (R343): its place, its operation and OPK, its post sequence number, class
and clk of its post; whether its pass holds the engine, and the clk of its last grant; PROMO; the next band, the number of bands, and the
least clk of its pass (R347).  HOLD is that its operation waits on a fault record. -/
structure Resv where
  place : Nat
  op : Nat
  opk : Nat
  seq : Nat
  cls : Nat
  posted : Nat
  run : Bool := false
  granted : Option Nat := none
  promo : Bool := false
  rowprog : Nat := 0
  nband : Nat
  cost : Nat
  deriving DecidableEq, Repr

/-- An engine operation from issue to completion (R135, R136): what it captured at issue (operand values, tensor entries,
ranges, the store window of R95) and how far it is: the fault record it waits on and the VA of the access that does, its failure, the cores a COPYM has reached,
its pairing position in a COLL, its rays and the records not begun, the expanders a TABLD has reached, the bytes it has
fetched or will deliver with their poison, the blocks that receive a COPYM, the clk of its issue, its reservation entry while its block is
saved (R346), and how many parts of it, or of its band, are done (R147). -/
structure EngOp where
  life : OpLife := .running
  engine : Nat
  instr : Instr
  block : Nat
  wave : Nat
  core : Nat
  tag : Option Nat
  vals : List DWord := []
  ents : List (BitVec 256) := []
  ranges : List Range := []
  fault : Option Nat := none
  faultVa : Nat := 0
  failed : Option TagErr := none
  arrived : BitVec 4 := 0
  pair : Nat := 0
  rays : List Ray := []
  order : List Nat := []
  slots : List Nat := []
  window : Option (List (Nat × Nat)) := none
  data : List (Byte × Bool) := []
  recv : List (Nat × Nat) := []
  since : Nat := 0
  saved : Bool := false
  held : Option Resv := none
  done : Nat := 0
  deriving DecidableEq, Repr

/-! ## Cores and caches -/

/-- A line of an L1 data cache (R46): the location key of its first byte, valid and poisoned sectors, dirty bytes; `comp` the block
of a line held compressed until its core expands it, empty for a plain line (R104). -/
structure L1Line where
  loc : Nat
  valid : BitVec 4
  poison : BitVec 4
  dirty : BitVec 256
  data : BitVec 2048
  comp : List Byte := []
  deriving DecidableEq, Repr

/-- A line of an L1 instruction cache (R51): its location and set, the bytes it held when it was filled, its poisoned sectors. -/
structure ILine where
  loc : Nat
  set : Nat
  cells : List Host.Cell
  poison : BitVec 4
  deriving DecidableEq, Repr

/-- What one core holds beside its blocks; `retired` and `iretired` the ways of its L1 data and instruction caches that errors have
retired, by set and way (R71); `scrBusy` the clk until which a lane access occupies its scratchpad (R43); `codeFrom` how many of
`State.codeHeld` stood when its last ICINV completed (R227). -/
structure CoreSt where
  l1 : List L1Line := []
  retired : List (Nat × Nat) := []
  icache : List ILine := []
  iretired : List (Nat × Nat) := []
  codeFrom : Nat := 0
  scrBusy : Nat := 0
  locks : List (Option Lock) := []
  ferry : List FerryJob := []
  berths : List (Nat × Berth) := []
  deriving DecidableEq, Repr

/-- A line held by an L2 home (R52, R53, R57): its location, way and class, its valid sectors and dirty bytes; its data is the
memory's.  `plain` says that it is held in its plain form, whatever its stored form is (R104, R107). -/
structure L2Line where
  loc : Nat
  way : Nat
  cls : Fin 4
  valid : BitVec 4
  dirty : BitVec 256
  plain : Bool := true
  deriving DecidableEq, Repr

/-! ## Translation -/

/-- A cached translation (R27), in the structure `unit` numbers (`Machine/Translate.lean`). -/
structure Tlb where
  unit : Nat
  vm : Nat
  asid : BitVec 16
  g : Bool
  ctx : Bool
  va : Nat
  log2 : Nat
  pa : Nat
  sys : Bool
  cmp : Bool
  bypass : Bool
  dl : Bool
  d : Bool
  x : Bool
  w : Bool
  deriving DecidableEq, Repr

/-- A non-leaf entry in the walk cache of a cluster (R27): the space it was read for, its level (5 for the entry of an ASID root
table), the part of the VA that selects it, and its value. -/
structure WalkEnt where
  cluster : Nat
  vm : Nat
  asid : BitVec 16
  ctx : Bool
  level : Nat
  slice : Nat
  val : DWord
  deriving DecidableEq, Repr

/-- A fault record and the key its core keeps it under (R34, R35); `id` is none while it is held. -/
structure FaultRec where
  serial : Nat
  id : Option Word
  core : Nat
  space : Space
  va : Nat
  kind : Nat
  access : Access
  sys : Bool
  part : Nat
  wslot : Nat
  engine : Nat
  ptepa : Nat
  deriving DecidableEq, Repr

/-- A PRI page request (R38) for a 4 KiB page of host I/O addresses; `failed` once the host has refused it. -/
structure PriReq where
  page : Nat
  failed : Bool := false
  deriving DecidableEq, Repr

/-- The translation registers of the physical function (R12, R21, R30, R33): `invCmd` and `invAt` are the command that TLBINV carries
out and TLBINVVA as it stood when that was accepted; beside them the caches of R27, most recently filled first. -/
structure Xlat where
  vmroot : Sparse DWord := []
  ctxroot : Sparse DWord := []
  ctxrange : Sparse DWord := []
  invBusy : Bool := false
  invErr : Bool := false
  invCmd : DWord := 0
  invVa : DWord := 0
  invAt : DWord := 0
  fqBase : Nat := 0
  fqLog2 : Nat := 0
  fqHead : Word := 0
  fqTail : Word := 0
  tlb : List Tlb := []
  walkc : List WalkEnt := []
  faults : List FaultRec := []
  nextSerial : Nat := 0
  nextId : Word := 1
  pri : List PriReq := []
  hostPages : Sparse Nat := []
  deriving DecidableEq, Repr

/-! ## The L2 homes, the Landing's registers, the links -/

/-- The L2 of the device (R52-R57): its lines, most recently used first; the ways retired by errors, by set and way (R71); the
class idle flags; one more than the clk of each class's last allocation, 0 for none; L2WAYOWN; `moves` counts the transfers to and
from HBM, so that a step can tell whether it made one (R68; the model's own). -/
structure L2St where
  lines : List L2Line := []
  retired : List (Nat × Nat) := []
  idle : Sparse Bool := []
  last : Sparse Nat := []
  moves : Nat := 0
  own : Word := 0xFFAA5500
  deriving DecidableEq, Repr

/-- The registers of the Landing (R89). -/
structure LandRegs where
  en : Bool := false
  size : Nat := 0
  base : Nat := 0
  raytmo : Nat := 0x0400
  flightmax : Nat := 4
  provwin : Nat := 2
  qframes : Nat := 2
  tickvm : BitVec 17 := 1
  frame : Word := 0
  onpend : Bool := false
  offpend : Bool := false
  qerr : Bool := false
  heapfull : Bool := false
  setbusy : Bool := false
  objbase : Sparse DWord := []
  objctl : Sparse DWord := []
  share : Sparse DWord := []
  deriving DecidableEq, Repr

/-- A tag entry of the Landing (R78). -/
structure TagEntry where
  state : Nat := 0
  retain : Bool := false
  osz : Nat := 0
  key : Nat := 0
  fillframe : Word := 0
  lasthit : Word := 0
  pay : Nat := 0
  fpay : Nat := 0
  gen : Nat := 0
  acl : Nat := 0
  owner : Nat := 0
  sz : Nat := 0
  fser : Nat := 0
  oldfill : Word := 0
  watch : List Word := [0, 0, 0, 0]
  deriving DecidableEq, Repr

/-- Payload lines in quarantine (R91): a block and the frame it was freed in. -/
structure Quar where
  base : Nat
  lines : Nat
  frame : Word
  deriving DecidableEq, Repr

/-- A copy of an object entry in the object cache of a die (R76): the entry's location and its first four words. -/
structure ObjCopy where
  die : Nat
  loc : Nat
  words : List DWord
  deriving DecidableEq, Repr

/-- The Landing beside its registers: the tag stores (by die, set and way), GEN of the entries of die 0 that nothing has written, whose
KEY is 0, since the last sweep of object 0 (R77), the fill serial of each way (R78), the
quarantine and the object caches. -/
structure LandSt where
  tags : Sparse TagEntry := []
  gen0 : Nat := 0
  serial : Sparse Nat := []
  quar : List Quar := []
  objs : List ObjCopy := []
  deriving DecidableEq, Repr

/-! ## Compression -/

/-- A table slot of an expander (R106): its generation and the code lengths of the 256 symbols (R105). -/
structure TabSlot where
  gen : Nat
  lens : List Nat
  deriving DecidableEq, Repr

/-- Compression (R99-R109): CMPCTL, CMPHDR and CMPMAP, the cached headers and map entries by location, the stored block of
each line with C = 1 by line, and the slots of each expander, the one loaded earlier first. -/
structure CmpSt where
  en : Bool := false
  busy : Bool := false
  hdr : Nat := 0
  map : Nat := 0
  cached : Sparse DWord := []
  stored : Sparse (List Byte) := []
  slots : Sparse (List TabSlot) := []
  deriving DecidableEq, Repr

/-! ## Collectives and links -/

/-- The collective path (R321, R407): the two words of each group, and the count of each group and C-die. -/
structure CollSt where
  groups : Sparse (DWord × DWord) := []
  counts : Sparse Nat := []
  deriving DecidableEq, Repr

/-- An Izlyn port (R405): up after training, and the version of its link. -/
structure Port where
  up : Bool := false
  version : Nat := 0
  deriving DecidableEq, Repr

/-! ## Queues -/

/-- A stage queue (R149): its words, TAIL, COMMIT and HEAD, and the records reserved and not yet written, oldest first, each
with the locations and bytes of its slot (R150). -/
structure QueueSt where
  v : Bool := false
  recsz : Nat := 0
  log2n : Nat := 0
  base : Nat := 0
  asid : BitVec 16 := 0
  stage : Nat := 0
  cls : Nat := 0
  tail : Word := 0
  commit : Word := 0
  head : Word := 0
  hiwat : Nat := 0
  lowat : Nat := 0
  pend : List (List (Nat × Byte)) := []
  deriving DecidableEq, Repr

/-- One submission to a VM's launch queues (R383): a host ring entry, or a device entry with its record VA and ASID. -/
inductive LSub where
  | host
  | dev (va : DWord) (asid : BitVec 16)
  deriving DecidableEq, Repr

/-- The launch queues of one VM (R381, R383): the registers, and the submissions in their order. -/
structure LqSt where
  base : Nat := 0
  en : Bool := false
  dev : Bool := false
  err : Bool := false
  asid : BitVec 16 := 0
  log2n : Nat := 0
  head : Word := 0
  tail : Word := 0
  subs : List LSub := []
  deriving DecidableEq, Repr

/-! ## Errors and the service core -/

/-- An error-log record that waits to be written (R411): its time, event code, unit, VM, detail and count. -/
structure ErrRec where
  time : Nat
  event : Nat
  ukind : Nat
  die : Nat
  index : Nat
  vm : Nat
  detail : DWord
  count : Nat
  deriving DecidableEq, Repr

/-- The error log (R411): ERRLOG, ERRPTR, the next SEQ and the clk of the last aggregation. -/
structure ErrLog where
  base : Nat := 0
  log2n : Nat := 0
  head : Word := 0
  tail : Word := 0
  seq : Nat := 0
  aggAt : Nat := 0
  deriving DecidableEq, Repr

/-- A cluster's service core (R414, R415): the trapped wave it handles and the block of the handler, the set selector and its
snapshot, and what the handler has written that its own steps carry out: a command, entries to clear, selections. -/
structure SvcSt where
  handled : Option Nat := none
  block : Nat := 0
  sel : DWord := 0
  snap : List TagEntry := []
  cmd : Option Nat := none
  clears : List (Nat × Nat) := []
  selects : List DWord := []
  deriving DecidableEq, Repr

/-- An Umcor mailbox (R416): its registers, and the result of a command that has been carried out and not yet replied. -/
structure MbSt where
  slot : Nat := 0
  cmd : Nat := 0
  runSlot : Nat := 0
  runCmd : Nat := 0
  addr : Nat := 0
  len : Nat := 0
  busy : Bool := false
  rlen : Nat := 0
  status : Nat := 0
  result : Option (Nat × Nat) := none
  deriving DecidableEq, Repr

/-- Umcor (R408, R409): the active core, whether the other is lost, the images written to flash, the preferred slot, the slot
of the running firmware, and whether some image verified at reset. -/
structure UmSt where
  active : Nat := 0
  lost : Bool := false
  flash : List (Nat × List Byte) := []
  preferred : Nat := 0
  running : Nat := 0
  booted : Bool := true
  deriving DecidableEq, Repr

/-! ## Placement and the governor -/

/-- A pre-emption of a function (R391): PMTCTL, while it is busy the VM and class (none for every class) acted on, and the
blocks that are not saved yet. -/
structure PmtSt where
  hold : Bool := false
  scope : Bool := false
  cls : Nat := 0
  vm : Nat := 0
  act : Option (Nat × Option Nat) := none
  sel : List Nat := []
  deriving DecidableEq, Repr

/-- A stage of a VM's governor (R167): its limits, its cores, and the move toward or from it: the core, the donor (none for an
unassigned core) and the receiver. -/
structure StageSt where
  minc : Nat := 0
  maxc : Nat := 0
  cores : List Nat := []
  deriving DecidableEq, Repr

/-- A core moved from one stage to another (R170). -/
structure StageMove where
  core : Nat
  donor : Nat
  target : Nat
  blocks : List Nat := []
  deriving DecidableEq, Repr

/-- The stage governor of a VM (R167-R171). -/
structure GovSt where
  en : Bool := false
  pool : Nat := 0
  period : Nat := 64
  last : Nat := 0
  held : List Nat := []
  stages : Sparse StageSt := []
  moves : List StageMove := []
  deriving DecidableEq, Repr

/-- The highest-ranked pending gang of a class that fits nowhere (R385): since when, and the cores reserved for it. -/
structure GangWait where
  grid : Nat
  unit : Nat
  since : Nat
  cores : List Nat := []
  deriving DecidableEq, Repr

/-! ## Calendars, network and memory channels -/

/-- The Timetable (R61-R64): the twelve calendar registers as written and as in force, PEND, and the clk of the COMMIT. -/
structure TtSt where
  shadow : List DWord := List.replicate 12 0xCB61CB61CB61CB61
  force : List DWord := List.replicate 12 0xCB61CB61CB61CB61
  pend : Bool := false
  since : Nat := 0
  deriving DecidableEq, Repr

/-- One class on one link (R66): flits accepted, flits held in the receiver's class buffer, the clk up to which the flits that left it are
accounted for, discarded flits that the link's replay buffer still holds, whether a retry has been asked for, and how many of the held
flits the sender has yet to send again. -/
structure LinkSt where
  accepted : Nat := 0
  held : Nat := 0
  leftAt : Nat := 0
  replay : Nat := 0
  retry : Bool := false
  resend : Nat := 0
  deriving DecidableEq, Repr

/-- An HBM channel (R68, R69): the clk of its last refresh and of the first uncounted corrected error, and the corrected errors
that no record counts yet. -/
structure HbmSt where
  refreshed : Nat := 0
  ceSince : Nat := 0
  ce : Nat := 0
  deriving DecidableEq, Repr

/-- The host link (R403): trained, its width, the generation of its rate, and flit mode. -/
structure PcieSt where
  up : Bool := false
  width : Nat := 0
  rate : Nat := 0
  flit : Bool := false
  deriving DecidableEq, Repr

/-! ## Soft errors -/

/-- An error of a store (R69, R71, R193): one corrected in a SRAM of a C-die or cluster or in the register files of a cluster; an
uncorrectable one in a sector of an L1 or L2 or of an instruction cache, in the tag entry of a way of an L1 data or instruction cache
(and the line it names, if any) or of an L2 way, in a word of a block's scratchpad or accumulator allocation, in a register word under
its key of `Machine/Operands.lean` or a whole O, L, X or F register with it, or in a tensor entry; and one in an HBM granule, `hard`
where it cannot be corrected, which shows when the granule is next read. -/
inductive Upset where
  | correctedDie (die : Nat)
  | correctedCluster (cluster : Nat)
  | correctedReg (cluster : Nat)
  | l1Sector (core loc : Nat)
  | fetchLine (core loc : Nat)
  | fetchTag (core set way : Nat) (line : Option Nat)
  | hbm (loc : Nat) (hard : Bool)
  | l2Sector (loc : Nat)
  | l1Tag (core set way : Nat) (line : Option Nat)
  | l2Tag (set way : Nat)
  | scratch (block word : Nat)
  | accum (block word : Nat)
  | register (wave key : Nat)
  | tensor (block entry : Nat)
  deriving DecidableEq, Repr

/-- The corrected errors of a unit that no record counts yet, and the clk of the first of them (R411). -/
structure CeSt where
  count : Nat := 0
  since : Nat := 0
  deriving DecidableEq, Repr

/-- Soft errors (DESIGN CHOICE, log entry 41): those still to come, each with the number of steps before it strikes, and the corrected ones by
unit: C-dies from 0, clusters from 8, the register files of clusters from 48. -/
structure SoftSt where
  upsets : List (Nat × Upset) := []
  corrected : Sparse CeSt := []
  deriving DecidableEq, Repr

/-! ## The machine -/

/-- The wave, the slot and the word of the instruction that a step issues. -/
structure Cur where
  wave : Nat
  slotB : Bool
  iw : IWord
  deriving DecidableEq, Repr

/-- The machine.  `hbmErr` holds the errors of HBM granules, by location divided by 32, that no read has met or that no write has
overwritten: 1 one that is corrected, 2 one that is not (R69); `stopped` that the instruction a step tried cannot issue yet, for want of
its unit or a counter or because its wait goes on (R388; no state that a step leaves has it); `codeHeld` the contents of memory, oldest first, that a fetch without an
ICINV since may still find (R227). -/
structure State where
  inputs : List Instr := []
  choice : Nat := 0
  cur : Option Cur := none
  stopped : Bool := false
  clk : Nat := 0
  mem : List Host.Cell := []
  poison : Sparse Bool := []
  hbmErr : Sparse Nat := []
  codeHeld : List (List Host.Cell) := []
  waves : List Wave := []
  blocks : List Block := []
  grids : List Grid := []
  ops : List EngOp := []
  cores : Sparse CoreSt := []
  resv : Sparse (List Resv) := []
  postSeq : Sparse Nat := []
  svcQueue : Sparse (List Nat) := []
  svcImg : Sparse DWord := []
  errors : List ErrRec := []
  x : Xlat := {}
  l2 : L2St := {}
  lreg : LandRegs := {}
  land : LandSt := {}
  cmp : CmpSt := {}
  queues : Sparse QueueSt := []
  coll : CollSt := {}
  ports : Sparse Port := []
  lq : Sparse LqSt := []
  izroute : Sparse DWord := []
  chRetired : List (Nat × Nat) := []
  chPending : List (Nat × Nat) := []
  clRetired : List Nat := []
  clPending : List Nat := []
  clFenced : List Nat := []
  sailed : List (Nat × Nat) := []
  err : ErrLog := {}
  svc : Sparse SvcSt := []
  svcRead : Sparse (List Byte) := []
  mbox : Sparse MbSt := []
  um : UmSt := {}
  ctxPool : Sparse DWord := []
  pmt : Sparse PmtSt := []
  gov : Sparse GovSt := []
  gangs : Sparse (List GangWait) := []
  tt : TtSt := {}
  noc : Sparse LinkSt := []
  hbm : Sparse HbmSt := []
  pcie : PcieSt := {}
  dumpBase : Nat := 0
  dumpEn : Bool := false
  fatal : Nat := 0
  dumped : Bool := false
  off : Bool := false
  msi : List (Nat × Nat) := []
  hostReply : Option (List Byte) := none
  soft : SoftSt := {}
  deriving DecidableEq, Repr

/-- Why a step can stop with a fault. -/
inductive Fault where
  /-- An instruction was given to `exec` and no running wave is issuing.  Raised by every meaning of an instruction; the
  step function never does this.  Safe: the manual has no such event. -/
  | noIssuingWave
  /-- An event was asked for in a state in which the manual gives it no place (no such operation, wave, record or
  request).  Raised by the meanings of the events.  Safe: the manual has no such event. -/
  | eventCannotOccur
  deriving DecidableEq, Repr

/-- Why a step can be refused. -/
inductive Refusal where
  /-- An instruction that has no meaning yet.  Raised by `exec` alone.  Safe. -/
  | notModelled (mnemonic : String)
  deriving DecidableEq, Repr

/-- The machine right after reset: nothing resident, nothing cached, every register at the value the manual gives. -/
def State.reset : State := {}

end Sys2Proof.Machine
end

