-- ==== Sys2Proof/Machine/Basic.lean ====
section
/-! DEFINITION. Plain reading and writing of the state: waves, blocks, cores by number, lanes of a mask. -/
namespace Sys2Proof.Machine

/-- What a meaning answers. -/
abbrev Out := Host.Outcome State Fault Refusal

/-- An outcome whose next state, if it has one, is changed by `f`. -/
def thenDo (r : Out) (f : State → State) : Out :=
  match r with
  | .next s => .next (f s)
  | .fault e => .fault e
  | .refused e => .refused e

/-! ## Lanes -/

/-- The lanes of a mask in ascending order. -/
def lanesOf (m : LaneMask) : List Nat := (List.range 32).filter fun l => m.getLsbD l

/-- The mask of the lanes for which `p` holds. -/
def maskOf (p : Nat → Bool) : LaneMask :=
  .ofNat 32 ((List.range 32).foldl (fun a l => if p l then a + 2 ^ l else a) 0)

/-- The mask of a list of lanes. -/
def maskOfList (ls : List Nat) : LaneMask := maskOf fun l => ls.contains l

/-! ## State by number -/

def State.wave (s : State) (i : Nat) : Wave := s.waves.getD i {}
def State.setWave (s : State) (i : Nat) (w : Wave) : State := { s with waves := s.waves.set i w }
def State.updWave (s : State) (i : Nat) (f : Wave → Wave) : State := s.setWave i (f (s.wave i))

def State.block (s : State) (i : Nat) : Block := s.blocks.getD i {}
def State.setBlock (s : State) (i : Nat) (b : Block) : State := { s with blocks := s.blocks.set i b }
def State.updBlock (s : State) (i : Nat) (f : Block → Block) : State := s.setBlock i (f (s.block i))

def State.grid (s : State) (i : Nat) : Grid := s.grids.getD i {}
def State.setGrid (s : State) (i : Nat) (g : Grid) : State := { s with grids := s.grids.set i g }
def State.updGrid (s : State) (i : Nat) (f : Grid → Grid) : State := s.setGrid i (f (s.grid i))

def State.core (s : State) (i : Nat) : CoreSt := Sparse.get {} s.cores i
def State.setCore (s : State) (i : Nat) (c : CoreSt) : State := { s with cores := Sparse.set {} s.cores i c }
def State.updCore (s : State) (i : Nat) (f : CoreSt → CoreSt) : State := s.setCore i (f (s.core i))

def State.setOp (s : State) (i : Nat) (o : EngOp) : State := { s with ops := s.ops.set i o }
def State.updOp (s : State) (i : Nat) (f : EngOp → EngOp) : State :=
  match s.ops[i]? with
  | some o => s.setOp i (f o)
  | none => s

/-- The cluster (die·5 + physical cluster) of a core (die·20 + physical cluster·4 + core). -/
def clusterOf (core : Nat) : Nat := core / 4
/-- The die of a core. -/
def dieOf (core : Nat) : Nat := core / 20

/-- The cores of the device: 8 dies of 5 physical clusters of 4 cores (R2). -/
def allCores : List Nat := List.range 160

/-- The resident blocks of a core; a handler of its service core is none of them (R414). -/
def State.resident (s : State) (core : Nat) : List Nat :=
  (List.range s.blocks.length).filter fun i => (s.block i).life == .resident && (s.block i).core == core && !(s.block i).svc

/-! ## Slots -/

def Wave.slot (w : Wave) (isB : Bool) : Slot := if isB then w.slotB else w.slotA
def Wave.setSlot (w : Wave) (isB : Bool) (sl : Slot) : Wave :=
  if isB then { w with slotB := sl } else { w with slotA := sl }
def Wave.path (w : Wave) (isB : Bool) : Path := (w.slot isB).path
def Wave.setPath (w : Wave) (isB : Bool) (p : Path) : Wave := w.setSlot isB { w.slot isB with path := p }

/-- WINSTAT.DEPTH: frames on the frame list (R180). -/
def Wave.depth (w : Wave) : Nat := w.frames.length

/-- The ring size N of a RING field (R174). -/
def ringSize (ring : Nat) : Nat := 64 + 32 * ring

/-- Where the handler record at a context VA of a VM, as it was last read, is kept (R410). -/
def svcKey (vm va : Nat) : Nat := 17 * va + vm

/-- The ring size N of a wave: 64, 96, ..., 256 (R174). -/
def Wave.ringN (w : Wave) : Nat := ringSize w.ring.val

/-- The window size W = min(128, N/2) (R175). -/
def Wave.win (w : Wave) : Nat := min 128 (w.ringN / 2)

/-- The nesting counter of a lane (R194). -/
def Wave.nestOf (w : Wave) (l : Nat) : Nat := Sparse.get 0 w.nest l

/-- The value of flag `Fn` in a lane. -/
def Wave.flagOf (w : Wave) (n l : Nat) : Bool := (Sparse.get 0 w.flag n : LaneMask).getLsbD l

/-- Whether the guard is true for a lane (R215). -/
def Wave.guardOf (w : Wave) (g : Guard) (l : Nat) : Bool :=
  match g with
  | .always => true
  | .ifTrue n => w.flagOf n l
  | .ifFalse n => !w.flagOf n l

/-- A lane of the slot's mask that is launched, has not exited and has counter 0 (R195 without the guard). -/
def Wave.laneOn (w : Wave) (isB : Bool) (l : Nat) : Bool :=
  (w.path isB).mask.getLsbD l && w.launched.getLsbD l && !w.exited.getLsbD l && w.nestOf l == 0

/-- The active lanes of an instruction (R195). -/
def Wave.active (w : Wave) (isB : Bool) (g : Guard) : LaneMask :=
  maskOf fun l => w.laneOn isB l && w.guardOf g l

end Sys2Proof.Machine
end

