-- ==== Sys2Proof/Machine/Record.lean ====
section
/-! DEFINITION. The fields of a launch record (R154). -/
namespace Sys2Proof.Machine

/-- Word `i` of a record. -/
def recWord (r : List DWord) (i : Nat) : DWord := r.getD i 0

def recVersion (r : List DWord) : Nat := bits (recWord r 0) 63 56
def recKind (r : List DWord) : Nat := bits (recWord r 0) 55 52
def recClass (r : List DWord) : Nat := bits (recWord r 0) 51 50
def recStage (r : List DWord) : Nat := bits (recWord r 0) 49 47
def recPrio (r : List DWord) : Nat := bits (recWord r 0) 46 44
def recBpc (r : List DWord) : Nat := bits (recWord r 0) 43 41
def recInq (r : List DWord) : Nat := bits (recWord r 0) 39 32
def recAsid (r : List DWord) : BitVec 16 := .ofNat 16 (bits (recWord r 0) 31 16)
def recEntry (r : List DWord) : Nat := bits (recWord r 1) 55 0
def recGx (r : List DWord) : Nat := bits (recWord r 2) 63 48
def recGy (r : List DWord) : Nat := bits (recWord r 2) 47 32
def recGz (r : List DWord) : Nat := bits (recWord r 2) 31 16
/-- Gang width GW + 1. -/
def recGw (r : List DWord) : Nat := bits (recWord r 2) 15 12 + 1
/-- Gang height GH + 1. -/
def recGh (r : List DWord) : Nat := bits (recWord r 2) 11 8 + 1
def recArgw (r : List DWord) : Nat := bits (recWord r 3) 63 57
def recArgs (r : List DWord) : Nat := bits (recWord r 3) 55 0
def recScr (r : List DWord) : Nat := bits (recWord r 4) 63 48
def recAcc (r : List DWord) : Nat := bits (recWord r 4) 47 38
def recAccq (r : List DWord) : Nat := bits (recWord r 4) 37 36
def recPwmask (r : List DWord) : Nat := bits (recWord r 4) 31 16
def recPwtab (r : List DWord) : Nat := bits (recWord r 5) 55 0
def recDone (r : List DWord) : Nat := bits (recWord r 7) 55 0

/-- Waves per block of role `n`. -/
def recWaves (r : List DWord) (n : Nat) : Nat := bits (recWord r (8 + n)) 63 58
def recRing (r : List DWord) (n : Nat) : Nat := bits (recWord r (8 + n)) 57 55
def recSplit (r : List DWord) (n : Nat) : Nat := bits (recWord r (8 + n)) 54 46
def recEntoff (r : List DWord) (n : Nat) : Nat := bits (recWord r (8 + n)) 39 16
def recSpill (r : List DWord) (n : Nat) : Nat := bits (recWord r (8 + n)) 15 0

/-- Berth descriptor `n`: class, entry, timer, ring, split depth and spill units of sailed waves. -/
def recBclass (r : List DWord) (n : Nat) : Nat := bits (recWord r (22 + 2 * n)) 63 62
def recBentry (r : List DWord) (n : Nat) : Nat := bits (recWord r (22 + 2 * n)) 55 0
def recTimer (r : List DWord) (n : Nat) : Nat := bits (recWord r (23 + 2 * n)) 63 48
def recBring (r : List DWord) (n : Nat) : Nat := bits (recWord r (23 + 2 * n)) 47 45
def recBsplit (r : List DWord) (n : Nat) : Nat := bits (recWord r (23 + 2 * n)) 44 36
def recBspill (r : List DWord) (n : Nat) : Nat := bits (recWord r (23 + 2 * n)) 35 20

/-- Block barrier `n` at launch (R154, R161). -/
def recBb (r : List DWord) (n : Nat) : Barrier :=
  let f := bits (recWord r (12 + n / 4)) (16 * (n % 4) + 15) (16 * (n % 4))
  { expect := f / 1024, members := .ofNat 4 (f / 64), e := f / 1024 }
/-- Cluster barrier `n` at launch. -/
def recCb (r : List DWord) (n : Nat) : Barrier :=
  let f := bits (recWord r (16 + n / 2)) (32 * (n % 2) + 31) (32 * (n % 2))
  { expect := f / 2 ^ 20, members := .ofNat 4 (f / 2 ^ 16), e := f / 2 ^ 20 }
/-- Grid barrier `n` at launch. -/
def recGb (r : List DWord) (n : Nat) : Barrier :=
  let f := bits (recWord r (20 + n / 2)) (32 * (n % 2) + 31) (32 * (n % 2))
  { expect := f / 2 ^ 20, members := .ofNat 4 (f / 2 ^ 16), raster := f / 2 ^ 15 % 2 == 1, e := f / 2 ^ 20 }

/-- Whether the grid uses any cluster or grid barrier (R162). -/
def recUsesCb (r : List DWord) : Bool := (List.range 8).any fun n => (recCb r n).expect != 0
/-- A RASTER grid always uses a grid barrier (R371). -/
def recUsesGb (r : List DWord) : Bool := recKind r == 1 || (List.range 4).any fun n => (recGb r n).expect != 0

/-- Blocks of one gang, and how many consecutive cores carry them (R158). -/
def recGangSize (r : List DWord) : Nat := recGw r * recGh r
def recGangCores (r : List DWord) : Nat := (recGangSize r + recBpc r - 1) / recBpc r

/-- Whether the block's roles are restricted: some COPY, MMA or EPI wave is declared (R160). -/
def recRoles (r : List DWord) : Bool := recWaves r 1 != 0 || recWaves r 2 != 0 || recWaves r 3 != 0

/-- The number of blocks of a grid; a STAGE record's GX, GY and GZ are ignored (R167). -/
def recBlocks (r : List DWord) : Nat := recGx r * recGy r * recGz r

end Sys2Proof.Machine
end

