-- ==== Sys2Proof/Machine/Life.lean ====
section
/-! DEFINITION. Barriers (R161), the exit of waves (R206) and the kill of blocks with all that it frees (R162, R399). -/
namespace Sys2Proof.Machine

/-! ## Barriers -/

/-- The completion rule: COUNT at or above E starts a new phase (R161). -/
def Barrier.settle (b : Barrier) : Barrier :=
  if b.e ≤ b.count then { b with count := 0, phase := !b.phase, turns := b.turns + 1 } else b

/-- One arrival (R161). -/
def Barrier.arrive (b : Barrier) : Barrier := { b with count := (b.count + 1) % 4096 }.settle

/-- `k` members leave (R161). -/
def Barrier.leave (b : Barrier) (k : Nat) : Barrier :=
  if k = 0 then b else { b with e := b.e - k }.settle

/-- Whether a role is a member of a barrier in use. -/
def Barrier.member (b : Barrier) (role : Fin 4) : Bool := b.expect != 0 && b.members.getLsbD role.val

/-- The key of a block's cluster barriers: its gang and its cluster. -/
def Block.cbKey (b : Block) : Nat × Nat := (b.gang, clusterOf b.core)

/-- The cluster barriers of a gang on a cluster; as launched until one of them changes. -/
def Grid.cbs (g : Grid) (k : Nat × Nat) : List Barrier :=
  match g.cb.find? (fun e => e.1 == k) with
  | some e => e.2
  | none => (List.range 8).map (recCb g.record)

/-- Replace the cluster barriers of a gang on a cluster. -/
def Grid.setCbs (g : Grid) (k : Nat × Nat) (bs : List Barrier) : Grid :=
  { g with cb := (k, bs) :: g.cb.filter (fun e => e.1 != k) }

/-- A level of barriers as a block sees it. -/
def State.barriers (s : State) (bi : Nat) : BarLevel → List Barrier
  | .bb => (s.block bi).bb
  | .cb => (s.grid (s.block bi).grid).cbs (s.block bi).cbKey
  | .gb => (s.grid (s.block bi).grid).gb

def State.setBarriers (s : State) (bi : Nat) (lvl : BarLevel) (bs : List Barrier) : State :=
  match lvl with
  | .bb => s.updBlock bi fun b => { b with bb := bs }
  | .cb => s.updGrid (s.block bi).grid fun g => g.setCbs (s.block bi).cbKey bs
  | .gb => s.updGrid (s.block bi).grid fun g => { g with gb := bs }

/-- One arrival on barrier `n` of a level (R161). -/
def State.arrive (s : State) (bi : Nat) (lvl : BarLevel) (n : Nat) : State :=
  let bs := s.barriers bi lvl
  s.setBarriers bi lvl (bs.set n ((bs.getD n {}).arrive))

/-- The barriers of every level after `k` waves of a role have left (R161). -/
def leaveAll (bs : List Barrier) (role : Fin 4) (k : Nat) : List Barrier :=
  bs.map fun b => if b.member role then b.leave k else b

/-- The member exits of one wave of a block, at every level (R161). -/
def State.memberExit (s : State) (bi : Nat) (role : Fin 4) : State :=
  if (s.block bi).spawned then s
  else [BarLevel.bb, .cb, .gb].foldl (fun s lvl => s.setBarriers bi lvl (leaveAll (s.barriers bi lvl) role 1)) s

/-! ## Errors -/

/-- Add a record to those that wait for the error log (R411). -/
def State.logError (s : State) (event ukind die index vm : Nat) (detail : DWord) : State :=
  { s with errors := s.errors ++ [⟨s.clk, event, ukind, die, index, vm, detail, 1⟩] }

/-! ## The end of blocks -/

/-- The waves of a block that have not ended leave the cluster and grid barriers (R161). -/
def State.blockLeaves (s : State) (bi : Nat) : State :=
  (s.block bi).waves.foldl (fun s wi =>
    if (s.wave wi).life == .ended || (s.block bi).spawned then s
    else [BarLevel.cb, .gb].foldl (fun s lvl =>
      s.setBarriers bi lvl (leaveAll (s.barriers bi lvl) (s.wave wi).role 1)) s) s

/-- Drop what a core's tables hold for a block: the range locks of its operations and of its scratchpad, its waves' Ferry work (R399), and
the berth that its wave has not left (R164). -/
def CoreSt.release (c : CoreSt) (ops : List EngOp) (bi : Nat) (ws : List Nat) : CoreSt :=
  { c with
    locks := ((c.locks.map fun e => match e with
      | some l => if l.block == bi || (ops[l.op]?).any (fun o => o.block == bi) then none else some l
      | none => none).reverse.dropWhile Option.isNone).reverse
    ferry := c.ferry.filter fun j => match j with
      | .spill w .. | .record w .. | .push w .. | .pop w .. => !ws.contains w
    berths := c.berths.filter fun b => b.2.block != some bi }

/-- A block's operations stop; the collective path runs on (R147, R399). -/
def dropOps (bi : Nat) (ops : List EngOp) : List EngOp :=
  ops.map fun o => if o.block == bi && o.life == .running && o.engine != 28 then { o with life := .dropped } else o

/-- Mark a list of waves as ended. -/
def State.endWaves (s : State) (ws : List Nat) : State :=
  ws.foldl (fun s wi => s.updWave wi fun w => { w with life := .ended, stalls := [], triple := [] }) s

/-- Free what a block holds, on every core and cluster. -/
def State.freeBlock (s : State) (bi : Nat) : State :=
  let ws := (s.block bi).waves
  let keep := fun (r : Resv) => match s.ops[r.op]? with
    | some o => o.block != bi
    | none => false
  { s with
    cores := (s.cores.map fun kc => (kc.1, kc.2.release s.ops bi ws)).filter fun kc => kc.2 != {}
    ops := dropOps bi s.ops
    resv := (s.resv.map fun kr => (kr.1, kr.2.filter keep)).filter fun kr => kr.2 != []
    svcQueue := (s.svcQueue.map fun kq => (kq.1, kq.2.filter fun w => !ws.contains w)).filter fun kq => kq.2 != [] }

/-- The handling of a trapped wave ends: the handler's block is over and the service core is free (R414). -/
def State.endHandler (s : State) (cl : Nat) : State :=
  let v : SvcSt := Sparse.get {} s.svc cl
  match v.handled with
  | none => s
  | some _ =>
    let s := (s.endWaves (s.block v.block).waves).freeBlock v.block
    let s := s.updBlock v.block fun b => { b with life := .ended }
    { s with svc := Sparse.set {} s.svc cl { v with handled := none, cmd := none, clears := [], selects := [] } }

/-- The handlings of the waves of a list end. -/
def State.endHandlersOf (s : State) (ws : List Nat) : State :=
  (s.svc.map Prod.fst).foldl (fun s cl =>
    match (Sparse.get {} s.svc cl : SvcSt).handled with
    | some wi => if ws.contains wi then s.endHandler cl else s
    | none => s) s

/-- A block is no longer to be saved: a pre-emption with nothing left to save is over (R391, R393). -/
def State.unselect (s : State) (bi : Nat) : State :=
  if s.pmt.all fun e => !e.2.sel.contains bi then s
  else { s with pmt := s.pmt.map fun e =>
    let sel := e.2.sel.filter fun i => i != bi
    (e.1, { e.2 with sel := sel, act := if sel = [] then none else e.2.act }) }

/-- Kill one block for a cause: its waves stop, what it holds is freed, nothing is released (R399). -/
def State.killOne (s : State) (bi : Nat) (cause : Byte) : State :=
  let b := s.block bi
  match b.life with
  | .resident | .saved | .unplaced _ =>
    let s := s.blockLeaves bi
    let s := s.endWaves b.waves
    let s := s.endHandlersOf b.waves
    let s := (s.freeBlock bi).unselect bi
    let s := s.updBlock bi fun b => { b with life := .killed cause, tags := 0, tpend := 0, terr := 0, ending := false }
    let s := s.updGrid b.grid fun g =>
      { g with killed := true, ended := if b.spawned then g.ended else g.ended + 1 }
    s.logError 0x20 2 (dieOf b.core) (clusterOf b.core % 5) (s.grid b.grid).vm (cause.setWidth 64)
  | _ => s

/-- The blocks a kill extends to (R162): the gang of a grid with cluster barriers, the whole grid with grid barriers; a sailed wave's block
belongs to no gang. -/
def State.killSet (s : State) (bi : Nat) : List Nat :=
  let b := s.block bi
  let r := (s.grid b.grid).record
  if recUsesGb r then (List.range s.blocks.length).filter fun i => (s.block i).grid == b.grid
  else if recUsesCb r && !b.spawned then
    (List.range s.blocks.length).filter fun i =>
      (s.block i).grid == b.grid && (s.block i).gang == b.gang && !(s.block i).spawned
  else [bi]

/-- A grid that is killed whole places no further blocks, and its berths and what is left of its triangles go (R162, R371). -/
def State.killGrid (s : State) (gi : Nat) : State :=
  let mine := fun (x : Nat × Nat) => (s.core x.1).berths.any fun b => b.1 == x.2 && b.2.grid == gi
  { s.updGrid gi fun g => { g with killed := true, stopped := true, triangles := [] } with
    sailed := s.sailed.filter fun x => !mine x
    cores := (s.cores.map fun kc => (kc.1, { kc.2 with berths := kc.2.berths.filter fun b => b.2.grid != gi })).filter
      fun kc => kc.2 != {} }

/-- Kill a block with everything R162 extends the kill to. -/
def State.killPlain (s : State) (bi : Nat) (cause : Byte) : State :=
  let b := s.block bi
  let s1 := (s.killSet bi).foldl (fun s i => s.killOne i cause) s
  if recUsesGb (s.grid b.grid).record then s1.killGrid b.grid else s1

/-- A handler that is to be killed ends instead, and the block of the trapped wave is killed with NO_HANDLER (R414). -/
def State.kill (s : State) (bi : Nat) (cause : Byte) : State :=
  if (s.block bi).svc then
    match (Sparse.get {} s.svc (clusterOf (s.block bi).core) : SvcSt).handled with
    | some t => s.killPlain (s.wave t).block 0x45
    | none => s
  else s.killPlain bi cause

end Sys2Proof.Machine
end

