-- ==== Sys2Proof/Machine/Operands.lean ====
section
/-! DEFINITION. The operand forms of R217: which register word each names in a lane, reading, writing, and the checks
REG_BOUND and REG_POISON (R175, R176, R193). -/
namespace Sys2Proof.Machine

/-! ## Register words -/

/-- The key of ring position `pos` in lane `l`. -/
def ringKey (pos l : Nat) : Nat := pos * 32 + l
/-- The key of `O[r]` in lane `l`. -/
def oKey (r l : Nat) : Nat := 8192 + r * 32 + l
/-- The key of `L[r]` in lane `l`. -/
def lKey (r l : Nat) : Nat := 8448 + r * 32 + l
/-- The key of `K[n]`. -/
def kKey (n : Nat) : Nat := 8576 + n
/-- The key of `V[i]` in lane `l`: ring register (WB + i) mod N (R175). -/
def Wave.vKey (w : Wave) (i l : Nat) : Nat := ringKey ((w.wb + i) % w.ringN) l
/-- The key under which a counted instruction keeps lane `l` of flag `Fn`. -/
def flagKey (n l : Nat) : Nat := 16384 + n * 32 + l
/-- The keys under which lane `l` of `Xn` and `Jn` keep their poison. -/
def xKey (n l : Nat) : Nat := 16512 + n * 32 + l
def jKey (n : Nat) : Nat := 16640 + n

/-- A register word by key. -/
def Wave.reg (w : Wave) (k : Nat) : Word := Sparse.get 0 w.regs k
/-- Whether a register word is poisoned. -/
def Wave.poisoned (w : Wave) (k : Nat) : Bool := Sparse.get false w.poison k
/-- Write a register word; a write clears its poison (R193). -/
def Wave.setReg (w : Wave) (k : Nat) (v : Word) : Wave :=
  { w with regs := Sparse.set 0 w.regs k v, poison := Sparse.set false w.poison k false }
/-- Write a register word as poisoned (R70). -/
def Wave.setPoison (w : Wave) (k : Nat) (v : Word) : Wave :=
  { w with regs := Sparse.set 0 w.regs k v, poison := Sparse.set false w.poison k true }

/-- `Xn` in a lane. -/
def Wave.xOf (w : Wave) (n l : Nat) : Byte := Sparse.get 0 w.xreg (n * 32 + l)
/-- `Jn`. -/
def Wave.jOf (w : Wave) (n : Nat) : LaneMask := Sparse.get 0 w.jreg n
def Wave.setJ (w : Wave) (n : Nat) (m : LaneMask) : Wave := { w with jreg := Sparse.set 0 w.jreg n m }
/-- Write lane `l` of `Fn`; a write clears its poison (R193). -/
def Wave.setFlag (w : Wave) (n l : Nat) (v : Bool) : Wave :=
  let m : LaneMask := Sparse.get 0 w.flag n
  let bit : LaneMask := 1#32 <<< l
  { w with
    flag := Sparse.set 0 w.flag n (if v then m ||| bit else m &&& ~~~ bit)
    poison := Sparse.set false w.poison (flagKey n l) false }
/-- Write lane `l` of `Xn`; a write clears its poison (R193). -/
def Wave.setX (w : Wave) (n l : Nat) (v : Byte) : Wave :=
  { w with xreg := Sparse.set 0 w.xreg (n * 32 + l) v, poison := Sparse.set false w.poison (xKey n l) false }
/-- Mark a register word poisoned; it holds what it held. -/
def Wave.setBad (w : Wave) (k : Nat) : Wave := { w with poison := Sparse.set false w.poison k true }
/-- Clear the poison of a register word. -/
def Wave.cure (w : Wave) (k : Nat) : Wave := { w with poison := Sparse.set false w.poison k false }
/-- Write the nesting counter of a lane. -/
def Wave.setNest (w : Wave) (l v : Nat) : Wave := { w with nest := Sparse.set 0 w.nest l v }

/-! ## The constant table -/

/-- The 64 values of R218. -/
def constTable : List Word :=
  ((List.range 16).map fun k => .ofNat 32 k) ++ ((List.range 16).map fun k => .ofInt 32 (Int.ofNat k - 16))
    ++ [0x3F000000, 0x3F800000, 0x40000000, 0x40800000, 0xBF000000, 0xBF800000, 0xC0000000, 0xC0800000]
    ++ [0x3E22F983, 0x40490FDB, 0x3FB8AA3B, 0x3F317218, 0x7F800000, 0xFF800000, 0x7FC00000, 0x00800000]
    ++ [0x3C003C00, 0x38003800, 0x40004000, 0xBC00BC00, 0x3F803F80, 0x3F003F00, 0xBF80BF80, 0x7C007C00]
    ++ [0x000000FF, 0x0000FFFF, 0x00FF00FF, 0x0F0F0F0F, 0x33333333, 0x55555555, 0x80000000, 0xFFFFFFFF]

/-- A constant code as a 32-bit source. -/
def const32 (n : Nat) : Word := constTable.getD n 0
/-- A constant code as a 64-bit source: entries 0-31 sign-extended, the others zero-extended (R218). -/
def const64 (n : Nat) : DWord := if n < 32 then (const32 n).signExtend 64 else (const32 n).setWidth 64

/-! ## Reading -/

/-- The V index an operand names in a lane (R175, R176). -/
def Wave.vIndex (w : Wave) (o : Operand) (l : Nat) : Option Nat :=
  match o with
  | .v n => some n.val
  | .vx n c => some ((w.xOf n.val l).toNat + c.val)
  | _ => none

/-- The key of the `j`-th register word that an operand covers in a lane. -/
def Wave.opKey (w : Wave) (o : Operand) (l j : Nat) : Option Nat :=
  match o with
  | .v n => some (w.vKey (n.val + j) l)
  | .vx n c => some (w.vKey ((w.xOf n.val l).toNat + c.val + j) l)
  | .k n => some (kKey (n.val + j))
  | .l n => some (lKey n.val l)
  | .o n => some (oKey n.val l)
  | _ => none

/-- A mask of one bit. -/
def boolWord (b : Bool) : Word := if b then 1 else 0

/-- The 32-bit value of a source in a lane: its low word where it is wider. -/
def Wave.read (w : Wave) (o : Operand) (l : Nat) : Word :=
  match o with
  | .v n => w.reg (w.vKey n.val l)
  | .vx n c => w.reg (w.vKey ((w.xOf n.val l).toNat + c.val) l)
  | .k n => w.reg (kKey n.val)
  | .l n => w.reg (lKey n.val l)
  | .o n => w.reg (oKey n.val l)
  | .zero => 0
  | .laneid => .ofNat 32 l
  | .f n => boolWord (w.flagOf n.val l)
  | .nf n => boolWord (!w.flagOf n.val l)
  | .j n => w.jOf n.val
  | .x n => (w.xOf n.val l).setWidth 32
  | .const n => const32 n.val
  | .t n => .ofNat 32 n.val

/-- Word `j` of a wide source in a lane (R217): V groups, indexed V, K groups; a constant code by R218; ZERO. -/
def Wave.readAt (w : Wave) (o : Operand) (l j : Nat) : Word :=
  match o with
  | .v n => w.reg (w.vKey (n.val + j) l)
  | .vx n c => w.reg (w.vKey ((w.xOf n.val l).toNat + c.val + j) l)
  | .k n => w.reg (kKey (n.val + j))
  | .const n => if j = 0 then const32 n.val else if j = 1 then ((const64 n.val) >>> 32).setWidth 32 else 0
  | _ => if j = 0 then w.read o l else 0

/-- The 64-bit value of a source in a lane, low word first (R217, R218). -/
def Wave.read64 (w : Wave) (o : Operand) (l : Nat) : DWord := (w.readAt o l 1) ++ (w.readAt o l 0)

/-- A condition operand in a lane: a flag, its complement, or the constant that reads true (R280). -/
def Wave.cond (w : Wave) (o : Operand) (l : Nat) : Bool :=
  match o with
  | .f n => w.flagOf n.val l
  | .nf n => !w.flagOf n.val l
  | _ => true

/-! ## Checks -/

/-- A V operand and how many registers it covers, out of the window in every lane. -/
def Wave.plainOut (w : Wave) (o : Operand × Nat) : Bool :=
  match o.1 with
  | .v n => decide (w.win < n.val + o.2)
  | _ => false

/-- An indexed operand out of the window in a lane. -/
def Wave.indexOut (w : Wave) (l : Nat) (o : Operand × Nat) : Bool :=
  match o.1 with
  | .vx n c => decide (w.win < (w.xOf n.val l).toNat + c.val + o.2)
  | _ => false

/-- A wide indexed operand that names a misaligned register in an active lane (R217).  DEDUCED (log 19): the number is known only
as the instruction issues, so the check is made there. -/
def Wave.indexOdd (w : Wave) (act : LaneMask) (os : List (Operand × Nat)) : Bool :=
  (lanesOf act).any fun l => os.any fun o =>
    match o.1 with
    | .vx n c => decide (((w.xOf n.val l).toNat + c.val) % o.2 ≠ 0)
    | _ => false

/-- REG_BOUND: the mask to report when some operand lies outside the window (R175, R176). -/
def Wave.regBound (w : Wave) (act : LaneMask) (os : List (Operand × Nat)) : Option LaneMask :=
  if os.any w.plainOut then some act
  else
    let m := maskOf fun l => act.getLsbD l && os.any (w.indexOut l)
    if m = 0 then none else some m

/-- The keys a list of sources covers in a lane. -/
def Wave.srcKeys (w : Wave) (os : List (Operand × Nat)) (l : Nat) : List Nat :=
  os.flatMap fun o => (List.range o.2).filterMap fun j => w.opKey o.1 l j

/-- Whether a source is a per-wave register that holds poison. -/
def Wave.kPoison (w : Wave) (o : Operand × Nat) : Bool :=
  match o.1 with
  | .k n => (List.range o.2).any fun j => w.poisoned (kKey (n.val + j))
  | _ => false

/-- REG_POISON: the lanes whose reads meet poison; a poisoned K traps whatever the mask (R193). -/
def Wave.regPoison (w : Wave) (act : LaneMask) (srcs : List (Operand × Nat)) : Option LaneMask :=
  if w.poison = [] then none
  else if srcs.any w.kPoison then some act
  else
    let m := maskOf fun l => act.getLsbD l && (w.srcKeys srcs l).any w.poisoned
    if m = 0 then none else some m

/-! ## Writing -/

/-- Copy a register word with its poison. -/
def Wave.copyReg (w : Wave) (d a : Nat) : Wave :=
  { w with regs := Sparse.set 0 w.regs d (w.reg a), poison := Sparse.set false w.poison d (w.poisoned a) }

/-- Shift a result into a lane's L file (R178); a poisoned word stays poisoned as it moves (R70). -/
def Wave.shiftL (w : Wave) (l : Nat) (v : Word) : Wave :=
  (((w.copyReg (lKey 3 l) (lKey 2 l)).copyReg (lKey 2 l) (lKey 1 l)).copyReg (lKey 1 l) (lKey 0 l)).setReg (lKey 0 l) v

/-- Write words at consecutive registers of a destination in a lane. -/
def Wave.writeWords (w : Wave) (d : Operand) (l : Nat) : Nat → List Word → Wave
  | _, [] => w
  | j, v :: vs =>
    match w.opKey d l j with
    | some k => (w.setReg k v).writeWords d l (j + 1) vs
    | none => w.writeWords d l (j + 1) vs

/-- Write a lane's result and shift L once per word, in ascending register order (R178). -/
def Wave.writeLane (w : Wave) (d : Operand) (l : Nat) (vs : List Word) : Wave :=
  let w := w.writeWords d l 0 vs
  match d with
  | .v _ | .o _ | .vx _ _ => vs.foldl (fun w v => w.shiftL l v) w
  | _ => w

/-- Write an instruction's result: once for K; a flag receives bit 0, an X register bits [7:0]; V and O in each active
lane with its shift of L (R174, R176, R178, R179). -/
def Wave.writeResult (w : Wave) (act : LaneMask) (d : Operand) (f : Nat → List Word) : Wave :=
  match d with
  | .k _ => w.writeWords d 0 0 (f 0)
  | .f n => (lanesOf act).foldl (fun w l => w.setFlag n.val l (((f l).getD 0 0).getLsbD 0)) w
  | .x n => (lanesOf act).foldl (fun w l => w.setX n.val l (((f l).getD 0 0).setWidth 8)) w
  | _ => (lanesOf act).foldl (fun w l => w.writeLane d l (f l)) w

/-- Write a result of groups 0x0-0x2 and 0x9-0xE, which shift no L (R178): once for K, else in each active lane. -/
def Wave.writePlain (w : Wave) (act : LaneMask) (d : Operand) (f : Nat → List Word) : Wave :=
  match d with
  | .k _ => w.writeWords d 0 0 (f 0)
  | .f n => (lanesOf act).foldl (fun w l => w.setFlag n.val l (((f l).getD 0 0).getLsbD 0)) w
  | _ => (lanesOf act).foldl (fun w l => w.writeWords d l 0 (f l)) w

/-- Whether a key is a lane of `O[r]`. -/
def isO (r k : Nat) : Bool := k / 32 == 256 + r

/-- The key of no register: the place of a result that a reuse hint overwrites. -/
def noKey : Nat := 32768

/-- What is still to come of a counted instruction leaves `O[r]` alone. -/
def Counted.spare (n : Counted) (r : Nat) : Counted :=
  let key := fun k => if isO r k then noKey else k
  { n with
    writes := n.writes.filter fun p => !isO r p.key
    keys := n.keys.map fun k => (k.1, key k.2)
    parked := n.parked.map fun p => { p with dst := p.dst.map key } }

/-- Copy the value read for an operand into `O[r]` in active lanes, after the instruction's own destination: what an instruction
counted in this step writes later does not reach it (R177; DEDUCED, log entry 45). -/
def Wave.copyTo (w old : Wave) (act : LaneMask) (r : Nat) (o : Operand) : Wave :=
  let n := old.counted.length
  let w := { w with counted := w.counted.take n ++ (w.counted.drop n).map fun e => (e.1, e.2.spare r) }
  (lanesOf act).foldl (fun w l => w.setReg (oKey r l) (old.read o l)) w

/-- Copy the value read for operand A into O0 and for B into O1, in active lanes, where the hint asks (R177). -/
def Wave.reuse (w old : Wave) (act : LaneMask) (hint : Hint) (a b : Option Operand) : Wave :=
  let w := match hint.reuseA, a with
    | true, some o => w.copyTo old act 0 o
    | _, _ => w
  match hint.reuseB, b with
  | true, some o => w.copyTo old act 1 o
  | _, _ => w

end Sys2Proof.Machine
end

