-- ==== Sys2Proof/Machine/Image.lean ====
section
/-! DEFINITION. The forms in which the machine's own state can be read as bytes: the trap record (R396), the wave state block
and block save area (R394), slot records and frame records (R211, R185), and the tables of the inspection window (R144, R343,
R78); and the two windows of a service-core handler (R414, R415), whose bytes are live and whose stores edit the state. -/
namespace Sys2Proof.Machine

/-! ## Records as words -/

/-- The byte at an offset of some 64-bit words. -/
def wordsByte (ws : List DWord) (o : Nat) : Byte := (ws.getD (o / 8) 0).extractLsb' (8 * (o % 8)) 8
/-- The bytes of some words, the first at the lowest offset. -/
def wordsBytes (ws : List DWord) : List Byte := (List.range (8 * ws.length)).map (wordsByte ws)

/-- A PC field: VA[55:2] in [61:8] (R211, R185, R396). -/
def pcField (pc : DWord) : DWord := .ofNat 64 (bits pc 55 2 * 256)
/-- The PC of such a field. -/
def pcOfField (w : DWord) : DWord := .ofNat 64 (bits w 61 8 * 4)

/-- The trap record (R396). -/
def trapWords (t : TrapRec) : List DWord :=
  [.ofNat 64 (t.cause.toNat * 2 ^ 56 + t.slotB.toNat * 2 ^ 55 + t.mask.toNat), pcField t.pc, t.detail,
    t.iw.extractLsb' 0 64, (t.iw.extractLsb' 64 32).setWidth 64, 0]

/-- A slot record or split-stack entry (R211). -/
def pathWords (valid last : Bool) (p : Path) : List DWord :=
  [.ofNat 64 (p.mask.toNat * 2 ^ 32 + valid.toNat * 2 ^ 31 + p.park.toNat * 2 ^ 30 + p.pj.val * 2 ^ 27
      + p.depth % 8192 * 2 ^ 14 + last.toNat * 2 ^ 13), pcField p.pc]
/-- The path of such a record. -/
def pathOf (w0 w1 : DWord) : Path :=
  { mask := .ofNat 32 (bits w0 63 32), park := w0.getLsbD 30, pj := .ofNat 8 (bits w0 29 27), depth := bits w0 26 14
    pc := pcOfField w1 }

/-- A frame record (R185). -/
def frameRecWords (f : Frame) : List DWord :=
  [pcField f.retpc ||| .ofNat 64 (f.fsz * 8 + f.spilled.toNat * 4), .ofNat 64 (f.sbase * 2 ^ 32)]
/-- The frame of such a record. -/
def frameOfWords (w0 w1 : DWord) : Frame := ⟨pcOfField w0, bits w0 7 3, w0.getLsbD 2, bits w1 47 32⟩

/-- A barrier as BARPH and the save area give it (R296). -/
def barrierWord (b : Barrier) : Word := .ofNat 32 (b.e % 4096 * 2 ^ 13 + b.count % 4096 * 2 + b.phase.toNat)

/-- A tag error record (R140). -/
def tagErrWords (e : TagErr) : List DWord :=
  [.ofNat 64 (e.engine * 2 ^ 58 + e.cause * 2 ^ 54 + e.kind * 2 ^ 50), .ofNat 64 (e.addr % 2 ^ 56)]

/-- A range-lock entry (R144). -/
def State.lockWords (s : State) : Option Lock → List DWord
  | none => [0, 0, 0]
  | some k =>
    [.ofNat 64 (2 ^ 63 + k.dst.toNat * 2 ^ 62 + k.space * 2 ^ 60 + (s.block (((s.ops[k.op]?).map EngOp.block).getD k.block)).bslot.val * 2 ^ 58 + k.tag * 2 ^ 52
        + k.vm * 2 ^ 47 + k.asid.toNat * 2 ^ 31), .ofNat 64 (k.base * 16), .ofNat 64 (k.last * 16)]

/-- PROMO of an entry: 65,536 clk have passed since its post while it has not been granted (R344). -/
def Resv.promoted (r : Resv) (clk : Nat) : Bool := r.promo || (r.granted.isNone && decide (r.posted + 65536 ≤ clk))

/-- A reservation entry (R343). -/
def State.resvWords (s : State) : Option Resv → List DWord
  | none => [0, 0]
  | some r =>
    match s.ops[r.op]? with
    | none => [0, 0]
    | some o =>
      [.ofNat 64 (2 ^ 63 + r.run.toNat * 2 ^ 62 + o.fault.isSome.toNat * 2 ^ 61 + r.cls * 2 ^ 59 + o.core % 4 * 2 ^ 57
          + (s.block o.block).bslot.val * 2 ^ 55 + (o.tag.getD 0) * 2 ^ 49 + r.opk * 2 ^ 46 + (r.promoted s.clk).toNat * 2 ^ 45
          + r.rowprog * 2 ^ 31 + r.seq % 65536 * 2 ^ 15), .ofNat 64 ((r.nband - 1) * 2 ^ 50)]

/-- A tag entry of the Landing (R78). -/
def tagWords (e : TagEntry) : List DWord :=
  [.ofNat 64 (e.state * 2 ^ 61 + e.retain.toNat * 2 ^ 60 + e.osz * 2 ^ 56 + e.key % 2 ^ 56),
    .ofNat 64 (e.fillframe.toNat * 2 ^ 32 + e.lasthit.toNat),
    .ofNat 64 (e.pay * 2 ^ 36 + e.fpay * 2 ^ 8 + e.gen),
    .ofNat 64 (e.acl * 2 ^ 48 + e.owner * 2 ^ 43 + e.sz * 2 ^ 40 + e.fser * 2 ^ 32 + e.oldfill.toNat),
    (e.watch.getD 1 0 ++ e.watch.getD 0 0 : DWord), (e.watch.getD 3 0 ++ e.watch.getD 2 0 : DWord)]

/-! ## The wave state block (R394) -/

/-- WINSTAT (R180). -/
def winstat (s : State) (wi : Nat) (w : Wave) : Nat :=
  let busy := w.refilling || (s.core (s.block w.block).core).ferry.any fun j => match j with
    | .spill v .. => v == wi
    | _ => false
  w.ringN / 32 * 2 ^ 48 + w.win * 2 ^ 40 + w.wb * 2 ^ 32 + w.depth * 2 ^ 19 + w.res * 2 ^ 11 + w.onchip * 2 ^ 6
    + (if busy then 2 ^ 5 else 0) + (if w.fwait then 2 ^ 4 else 0)

/-- WSTATUS (R181). -/
def wstatus (w : Wave) : Nat := w.deriv.toNat * 2 + w.pwoob.toNat

/-- The frame records on chip, the oldest first. -/
def Wave.chipFrames (w : Wave) : List Frame := w.frames.drop (w.frames.length - w.onchip)

/-- Two register words as one. -/
def Wave.regPair (w : Wave) (k : Nat) : DWord := (w.reg (k + 1) ++ w.reg k : DWord)

/-- 64-bit word `i` of a wave's state block (R394). -/
def State.stateWord (s : State) (wi i : Nat) : DWord :=
  let w := s.wave wi
  if i < 2 then (pathWords w.slotA.valid w.slotA.last w.slotA.path).getD i 0
  else if i < 4 then (pathWords w.slotB.valid w.slotB.last w.slotB.path).getD (i - 2) 0
  else if i < 8 then .ofNat 64 ((List.range 8).foldl (fun a q => a + w.nestOf (8 * (i - 4) + q) % 64 * 256 ^ q) 0)
  else if i = 8 then (w.exited ++ w.launched : DWord)
  else if i = 9 then .ofNat 64 (w.splitMax * 2 ^ 16 + w.split.length)
  else if i < 18 then (w.jOf (i - 10)).setWidth 64
  else if i = 18 then .ofNat 64 (winstat s wi w)
  else if i = 19 then .ofNat 64 (wstatus w)
  else if i < 22 then
    ((Sparse.get 0 w.flag (2 * (i - 20) + 1) : LaneMask) ++ (Sparse.get 0 w.flag (2 * (i - 20)) : LaneMask) : DWord)
  else if i < 38 then .ofNat 64 ((List.range 8).foldl (fun a q => a + (Sparse.get 0 w.xreg (8 * (i - 22) + q) : Byte).toNat * 256 ^ q) 0)
  else if i = 38 then .ofNat 64 (w.ldc + w.stc * 256 + w.cpc * 65536 + w.tlc * 2 ^ 24)
  else if 40 ≤ i && i < 46 then ((w.trap.map trapWords).getD []).getD (i - 40) 0
  else if 64 ≤ i && i < 96 then w.regPair (kKey (2 * (i - 64)))
  else if 96 ≤ i && i < 224 then w.regPair (oKey 0 0 + 2 * (i - 96))
  else if 224 ≤ i && i < 288 then w.regPair (lKey 0 0 + 2 * (i - 224))
  else if 288 ≤ i && i < 320 then (w.chipFrames.flatMap frameRecWords).getD (i - 288) 0
  else 0

/-- Word `i` of a block's save area below its scratchpad (R394). -/
def State.saveWord (s : State) (bi i : Nat) : DWord :=
  let b := s.block bi
  if i < 256 then (Sparse.get 0 b.tens (i / 4) : BitVec 256).extractLsb' (64 * (i % 4)) 64
  else if i = 256 then b.tags
  else if i = 257 then b.tpend
  else if i = 258 then b.terr
  else if 264 ≤ i && i < 272 then
    (barrierWord (b.bb.getD (2 * (i - 264) + 1) {}) ++ barrierWord (b.bb.getD (2 * (i - 264)) {}) : DWord)
  else if 384 ≤ i && i < 512 then
    match b.tagErr.find? fun e => e.1 == (i - 384) / 2 with
    | some e => (tagErrWords e.2).getD (i % 2) 0
    | none => 0
  else if 512 ≤ i && i < 800 then
    let mine := (s.core b.core).locks.filter fun l => match l with
      | some k => (s.ops[k.op]?).any fun o => o.block == bi
      | none => false
    (s.lockWords (mine.getD ((i - 512) / 3) none)).getD ((i - 512) % 3) 0
  else 0

/-! ## The windows of a handler (R414, R415) -/

/-- The first location of the handler windows: no storage lies there. -/
def windowTop : Nat := 2 ^ 53
/-- The location of byte `o` of the window of the trapped wave of a cluster, and of its inspection window. -/
def waveWinKey (cl o : Nat) : Nat := windowTop + cl * 2 ^ 20 + o
def inspectKey (cl o : Nat) : Nat := windowTop + cl * 2 ^ 20 + 2 ^ 16 + o

def State.svcAt (s : State) (cl : Nat) : SvcSt := Sparse.get {} s.svc cl
def State.setSvc (s : State) (cl : Nat) (v : SvcSt) : State := { s with svc := Sparse.set {} s.svc cl v }

/-- A byte of the trapped wave's window: the trap record at 0, the state block at 0x1000, the ring registers from 0x2000. -/
def State.waveWinByte (s : State) (wi o : Nat) : Byte :=
  let w := s.wave wi
  if o < 48 then wordsByte ((w.trap.map trapWords).getD []) o
  else if o < 0x1000 then 0
  else if o < 0x1A00 then (s.stateWord wi ((o - 0x1000) / 8)).extractLsb' (8 * (o % 8)) 8
  else if o < 0x2000 then Config.ownByte w.ctx o
  else if o - 0x2000 < 128 * w.ringN then (w.reg ((o - 0x2000) / 4)).extractLsb' (8 * (o % 4)) 8
  else 0

/-- A byte of a cluster's inspection window (R415). -/
def State.inspectByte (s : State) (cl o : Nat) : Byte :=
  let v := s.svcAt cl
  if o < 0x4000 then
    let e := o % 0x1000 / 24
    if e < 96 then wordsByte (s.lockWords ((s.core (4 * cl + o / 0x1000)).locks.getD e none)) (o % 0x1000 % 24) else 0
  else if o < 0x4100 then
    let n := (o - 0x4000) / 16
    wordsByte (s.resvWords ((Sparse.get [] s.resv cl).find? fun r => r.place == n)) (o % 16)
  else if o < 0x4108 then v.sel.extractLsb' (8 * (o - 0x4100)) 8
  else if 0x4140 ≤ o && o < 0x4440 then
    match v.snap[(o - 0x4140) / 48]? with
    | some e => wordsByte (tagWords e) ((o - 0x4140) % 48)
    | none => 0
  else if 0x4440 ≤ o && o < 0x4444 then s.lreg.frame.extractLsb' (8 * (o - 0x4440)) 8
  else 0

/-- A byte of a handler window by its location. -/
def State.windowByte (s : State) (k : Nat) : Byte :=
  let cl := (k - windowTop) / 2 ^ 20
  let o := (k - windowTop) % 2 ^ 20
  if o < 2 ^ 16 then
    match (s.svcAt cl).handled with
    | some wi => s.waveWinByte wi o
    | none => 0
  else s.inspectByte cl (o - 2 ^ 16)

/-! ### Edits -/

/-- A 64-bit word with byte `j` replaced. -/
def setWordByte (w : DWord) (j : Nat) (v : Byte) : DWord := setBits w (8 * j + 7) (8 * j) v.toNat

/-- A slot with a record word replaced (R211); one whose PC is written fetches there again. -/
def Slot.edit (sl : Slot) (i : Nat) (w : DWord) : Slot :=
  if i = 0 then
    let p := pathOf w 0
    { sl with valid := w.getLsbD 31, last := w.getLsbD 13
              path := { p with pc := sl.path.pc } }
  else
    let pc := pcOfField w
    { sl with waiting := false, held := none, sync := if pc = sl.path.pc then sl.sync else none, path := { sl.path with pc := pc } }

/-- A wave with the two registers of a word replaced. -/
def Wave.setPair (w : Wave) (k j : Nat) (v : DWord) : Wave :=
  if j < 4 then w.setReg k (v.extractLsb' 0 32) else w.setReg (k + 1) (v.extractLsb' 32 32)

/-- A wave with word `i` of its state block replaced where its fields are writable; `j` is the byte that was written (R181,
R211, R212).  The remaining fields are the device's own (DESIGN CHOICE, log entry 31). -/
def Wave.editWord (w : Wave) (i j : Nat) (v : DWord) : Wave :=
  if i < 2 then { w with slotA := w.slotA.edit i v }
  else if i < 4 then { w with slotB := w.slotB.edit (i - 2) v }
  else if i < 8 then w.setNest (8 * (i - 4) + j) (bits v (8 * j + 5) (8 * j))
  else if i = 8 then { w with exited := .ofNat 32 (bits v 63 32) }
  else if i = 9 then
    let n := bits v 8 0
    { w with split := w.split.take n ++ List.replicate (n - w.split.length) {} }
  else if i < 18 then (w.setJ (i - 10) (.ofNat 32 (bits v 31 0))).cure (jKey (i - 10))
  else if i = 19 then
    if j = 0 then { w with pwoob := w.pwoob && !v.getLsbD 0, deriv := w.deriv && !v.getLsbD 1 } else w
  else if 20 ≤ i && i < 22 then
    let n := 2 * (i - 20) + j / 4
    (List.range 8).foldl (fun w l => w.cure (flagKey n (8 * (j % 4) + l)))
      { w with flag := Sparse.set 0 w.flag n (.ofNat 32 (if j < 4 then bits v 31 0 else bits v 63 32)) }
  else if 22 ≤ i && i < 38 then w.setX ((8 * (i - 22) + j) / 32) ((8 * (i - 22) + j) % 32) (.ofNat 8 (bits v (8 * j + 7) (8 * j)))
  else if 64 ≤ i && i < 96 then w.setPair (kKey (2 * (i - 64))) j v
  else if 96 ≤ i && i < 224 then w.setPair (oKey 0 0 + 2 * (i - 96)) j v
  else if 224 ≤ i && i < 288 then w.setPair (lKey 0 0 + 2 * (i - 224)) j v
  else w

/-- WSTATUS is write-one-to-clear, so its bytes are not merged with what it holds. -/
def State.oldWord (s : State) (wi i : Nat) : DWord := if i = 19 then 0 else s.stateWord wi i

/-- One byte stored to the trapped wave's window. -/
def State.editWave (s : State) (wi o : Nat) (v : Byte) : State :=
  let w := s.wave wi
  if o < 0x1000 then s
  else if o < 0x2000 then
    let i := (o - 0x1000) / 8
    s.setWave wi (w.editWord i (o % 8) (setWordByte (s.oldWord wi i) (o % 8) v))
  else if o - 0x2000 < 128 * w.ringN then
    let k := (o - 0x2000) / 4
    s.setWave wi (w.setReg k ((setWordByte ((w.reg k).setWidth 64) (o % 4) v).setWidth 32))
  else s

/-- A command written to the window: the bytes stored at 0xFF8 onward, the others zero (DESIGN CHOICE, log entry 31). -/
def commandOf (kvs : List (Nat × Byte)) : Option Nat :=
  let mine := kvs.filter fun kv => (kv.1 - windowTop) % 2 ^ 20 / 8 == 0x1FF
  if mine = [] then none else some (mine.foldl (fun a kv => a + kv.2.toNat * 256 ^ (kv.1 % 8)) 0)

/-- The set selector that some stored bytes leave, when they touch it. -/
def selectOf (old : DWord) (kvs : List (Nat × Byte)) : Option DWord :=
  let mine := kvs.filter fun kv => ((kv.1 - windowTop) % 2 ^ 20 - 2 ^ 16) / 8 == 0x820 && decide (2 ^ 16 ≤ (kv.1 - windowTop) % 2 ^ 20)
  if mine = [] then none else some (mine.foldl (fun w kv => setWordByte w (kv.1 % 8) kv.2) old &&& 0x77FFF)

/-- The range-lock entries whose V some stored bytes write 0: core of the cluster and entry (R144, R415). -/
def clearsOf (kvs : List (Nat × Byte)) : List (Nat × Nat) :=
  kvs.filterMap fun kv =>
    let o := (kv.1 - windowTop) % 2 ^ 20 - 2 ^ 16
    if 2 ^ 16 ≤ (kv.1 - windowTop) % 2 ^ 20 && o < 0x4000 && o % 0x1000 % 24 == 7 && o % 0x1000 / 24 < 96 && !kv.2.getLsbD 7
    then some (o / 0x1000, o % 0x1000 / 24) else none

/-- Stores to the windows of a cluster: edits at once; a command, a selector write and cleared entries wait for their own steps. -/
def State.windowStoreAt (s : State) (cl : Nat) (kvs : List (Nat × Byte)) : State :=
  let v := s.svcAt cl
  match v.handled with
  | none => s
  | some wi =>
    let s := kvs.foldl (fun s kv =>
      let o := (kv.1 - windowTop) % 2 ^ 20
      if o < 2 ^ 16 then s.editWave wi o kv.2 else s) s
    s.setSvc cl { v with
      cmd := match commandOf kvs with
        | some c => some c
        | none => v.cmd
      selects := match selectOf v.sel kvs with
        | some x => v.selects ++ [x]
        | none => v.selects
      clears := v.clears ++ clearsOf kvs }

/-- Stores to handler windows. -/
def State.windowStore (s : State) (kvs : List (Nat × Byte)) : State :=
  ((kvs.map fun kv => (kv.1 - windowTop) / 2 ^ 20).eraseDups).foldl (fun s cl =>
    s.windowStoreAt cl (kvs.filter fun kv => (kv.1 - windowTop) / 2 ^ 20 == cl)) s

end Sys2Proof.Machine
end

