-- ==== Sys2Proof/Machine/Ops.lean ====
section
/-! DEFINITION. The shared operations of an issuing instruction: what it sees, retiring, taking a trap (R395, R396) and
resuming from one (R213, R399), and the paths of a divergent wave (R201-R206). -/
namespace Sys2Proof.Machine

/-! ## The cause codes of R398 -/

namespace Cause
def illegalInstruction : Byte := 0x01
def illegalEncoding : Byte := 0x02
def illegalOperand : Byte := 0x03
def fetchPoison : Byte := 0x04
def memoryFault : Byte := 0x05
def regBound : Byte := 0x06
def regPoison : Byte := 0x07
def roleViolation : Byte := 0x08
def illegalConvergence : Byte := 0x09
def privileged : Byte := 0x0A
def badAddress : Byte := 0x10
def scratchBound : Byte := 0x11
def accBound : Byte := 0x12
def alignment : Byte := 0x13
def unboundWindow : Byte := 0x14
def tagBusy : Byte := 0x15
def badTarget : Byte := 0x16
def badSpawn : Byte := 0x17
def barrierMember : Byte := 0x18
def copymTarget : Byte := 0x19
def collMember : Byte := 0x1A
def texDesc : Byte := 0x1B
def rayDesc : Byte := 0x1C
def rasterContext : Byte := 0x1D
def landingObject : Byte := 0x1E
def landingTick : Byte := 0x1F
def tensorUndef : Byte := 0x20
def tensorOperand : Byte := 0x21
def tensorInvalid : Byte := 0x22
def domainMismatch : Byte := 0x23
def binMismatch : Byte := 0x24
def scaleMismatch : Byte := 0x25
def nestingOverflow : Byte := 0x26
def splitOverflow : Byte := 0x27
def windowOverflow : Byte := 0x28
def windowUnderflow : Byte := 0x29
def rangeLock : Byte := 0x30
def staleTable : Byte := 0x31
def landingAccess : Byte := 0x32
def speculationViolation : Byte := 0x33
def engineError : Byte := 0x34
def badTable : Byte := 0x35
def userTrap : Byte := 0x38
def breakpoint : Byte := 0x39
def windowSpillFault : Byte := 0x40
def contextSaveFault : Byte := 0x41
def resumeInvalid : Byte := 0x42
def killed : Byte := 0x43
def hwRetired : Byte := 0x44
def noHandler : Byte := 0x45
end Cause

/-! ## The issuing instruction -/

/-- What an issuing instruction sees: its wave and slot, its block and grid, and its active lanes. -/
structure Ctx where
  wi : Nat
  w : Wave
  isB : Bool
  iw : IWord
  bi : Nat
  b : Block
  g : Grid
  h : Hdr
  act : LaneMask
  deriving DecidableEq, Repr

/-- The path the instruction issues from. -/
def Ctx.path (c : Ctx) : Path := c.w.path c.isB
/-- The address of the instruction. -/
def Ctx.pc (c : Ctx) : DWord := c.path.pc
/-- The space of the wave's accesses: its VM and ASID, or for a handler the VM's context space (R414). -/
def Ctx.space (c : Ctx) : Space := ⟨c.g.vm, c.g.asid, c.b.svc, c.b.svc⟩

/-- The context of the instruction that the state's issuing wave runs; none when no running wave is issuing. -/
def State.ctx (s : State) (h : Hdr) : Option Ctx :=
  match s.cur with
  | none => none
  | some u =>
    match s.waves[u.wave]? with
    | none => none
    | some w =>
      if w.life == .running && (w.slot u.slotB).valid then
        some ⟨u.wave, w, u.slotB, u.iw, w.block, s.block w.block, s.grid (s.block w.block).grid, h,
          w.active u.slotB h.guard⟩
      else none

/-- Run a meaning on the issuing wave. -/
def issue (s : State) (h : Hdr) (k : Ctx → Out) : Out :=
  match s.ctx h with
  | none => .fault .noIssuingWave
  | some c => k c

/-- The marks of an issue: LAST of both slots (R200), waiting ended, and the timing hints of R216. -/
def Wave.issued (w : Wave) (isB : Bool) (h : Hdr) (clk : Nat) : Wave :=
  { w with
    slotA := if isB then { w.slotA with last := false }
             else { w.slotA with last := true, waiting := false, held := none, sync := none }
    slotB := if isB then { w.slotB with last := true, waiting := false, held := none, sync := none }
             else { w.slotB with last := false }
    young := h.hint.yield
    hold := clk + 1 + h.hint.stall.val }

/-- Move a slot's PC. -/
def Wave.goto (w : Wave) (isB : Bool) (pc : DWord) : Wave := w.setPath isB { w.path isB with pc := pc }

/-- The next instruction: PC + 12 (R197). -/
def Wave.step12 (w : Wave) (isB : Bool) : Wave := w.goto isB ((w.path isB).pc + 12)

/-- Retire an instruction that goes on at PC + 12: `w` is its wave after its own effect; `a` and `b` are the fields it
reads as sources, for the reuse hints. -/
def State.retire (s : State) (c : Ctx) (w : Wave) (a b : Option Operand) : State :=
  s.setWave c.wi (((w.reuse c.w c.act c.h.hint a b).issued c.isB c.h s.clk).step12 c.isB)

/-- The instruction cannot issue now: its unit, its counter or something else that it needs is not available (R388, R424). -/
def State.notReady (s : State) : State := { s with stopped := true }

/-- The slot of the instruction, which waits (R281) and keeps its word and what it read at its issue. -/
def Ctx.held (c : Ctx) (read : Option DWord) : Slot := { c.w.slot c.isB with waiting := true, word := c.iw, held := read }

/-- The slot of the instruction waits already. -/
def Ctx.waiting (c : Ctx) : Bool := (c.w.slot c.isB).waiting

/-- The instruction waits (R281): nothing changes but that its slot waits; one that waits already goes on waiting. -/
def State.waits (s : State) (c : Ctx) (read : Option DWord := none) : State :=
  if c.waiting then s.notReady else s.setWave c.wi (c.w.setSlot c.isB (c.held read))

/-! ## Traps -/

/-- The service-core queue of a cluster. -/
def State.svcOf (s : State) (cl : Nat) : List Nat := Sparse.get [] s.svcQueue cl

/-- A trap (R208, R395, R396): the whole wave halts with a trap record and joins its cluster's service-core queue; with
no handler enabled for its VM its block is killed. -/
def State.takeTrapAt (s : State) (wi : Nat) (t : TrapRec) : State :=
  let w := s.wave wi
  let cl := clusterOf (s.block w.block).core
  if (s.block w.block).svc then s.kill w.block Cause.noHandler
  else
  let s := s.setWave wi { w with life := .trapped, trap := some t, stalls := [], cancel := none }
  if (Sparse.get 0 s.svcImg (s.grid (s.block w.block).grid).vm : DWord).getLsbD 63 then
    { s with svcQueue := Sparse.set [] s.svcQueue cl (s.svcOf cl ++ [wi]) }
  else s.kill w.block Cause.noHandler

/-- A trap of the issuing instruction. -/
def State.takeTrap (s : State) (c : Ctx) (cause : Byte) (mask : LaneMask) (detail : DWord) : State :=
  s.takeTrapAt c.wi ⟨cause, c.isB, mask, c.pc, detail, c.iw⟩

/-- A trap as an answer. -/
def trap (s : State) (c : Ctx) (cause : Byte) (mask : LaneMask) (detail : DWord := 0) : Out :=
  .next (s.takeTrap c cause mask detail)

/-- A check of an instruction: the cause, mask and detail of the trap it raises, if it raises one. -/
abbrev Check := Option (Byte × LaneMask × DWord)

/-- The trap of a misaligned wide indexed operand: as a decode trap, for every launched lane of the slot (R217, R222). -/
def Ctx.oddIndex (c : Ctx) (os : List (Operand × Nat)) : Check :=
  if c.w.indexOdd c.act os then some (Cause.illegalOperand, c.path.mask &&& c.w.launched, 0) else none

/-- The register checks of R397 levels 4 and 5: a misaligned wide indexed operand, REG_BOUND over every operand, then REG_POISON
over the sources. -/
def Ctx.regCheck (c : Ctx) (dst srcs : List (Operand × Nat)) : Check :=
  (c.oddIndex (dst ++ srcs)).or <|
  match c.w.regBound c.act (dst ++ srcs) with
  | some m => some (Cause.regBound, m, 0)
  | none =>
    match c.w.regPoison c.act srcs with
    | some m => some (Cause.regPoison, m, 0)
    | none => none

/-- The first check that raises a trap, taken; otherwise the rest of the instruction. -/
def guardTraps (s : State) (c : Ctx) : List Check → Out → Out
  | [], k => k
  | none :: t, k => guardTraps s c t k
  | some (cause, mask, detail) :: _, _ => trap s c cause mask detail

/-! ## Convergence and roles -/

/-- The lanes outside the issuing slot or with a non-zero counter (R207). -/
def Ctx.strays (c : Ctx) : LaneMask :=
  maskOf fun l => c.w.launched.getLsbD l && !c.w.exited.getLsbD l
    && !(c.path.mask.getLsbD l && c.w.nestOf l == 0)

/-- The wave is converged (R207). -/
def Ctx.converged (c : Ctx) : Bool :=
  c.strays == 0 && !(c.w.slot (!c.isB)).valid && c.w.split == []

/-- ILLEGAL_CONVERGENCE where convergence is required (R207). -/
def Ctx.convCheck (c : Ctx) : Check :=
  if c.converged then none else some (Cause.illegalConvergence, c.strays, 0)

/-- ROLE_VIOLATION where a block restricts roles and this one is not permitted (R160). -/
def Ctx.roleCheck (c : Ctx) (roles : List (Fin 4)) : Check :=
  if !c.b.spawned && recRoles c.g.record && !roles.contains c.w.role then some (Cause.roleViolation, c.act, 0) else none

/-! ## Paths -/

/-- The place of the newest entry of a split stack that satisfies `p`. -/
def newestIx (p : Path → Bool) (l : List Path) : Option Nat := (l.reverse.findIdx? p).map fun i => l.length - 1 - i

/-- The newest entry of a split stack that satisfies `p`, and the stack without it. -/
def takeNewest (p : Path → Bool) (l : List Path) : Option (Path × List Path) :=
  (newestIx p l).map fun k => (l.getD k {}, l.eraseIdx k)

/-- Fill slots that are not valid from the split stack (R202); a slot keeps its LAST (R200). -/
def Wave.fill (w : Wave) : Wave :=
  let one := fun (w : Wave) (isB : Bool) =>
    if (w.slot isB).valid then w
    else match takeNewest (fun p => !p.park) w.split with
      | some (p, rest) => { w.setSlot isB { valid := true, path := p, last := (w.slot isB).last } with split := rest }
      | none => w
  one (one w false) true

/-- Whether `k` new paths find room: the other slot, then the split stack (R202). -/
def Wave.room (w : Wave) (isB : Bool) (k : Nat) : Bool :=
  let free := if (w.slot (!isB)).valid then 0 else 1
  decide (k ≤ free + (w.splitMax - w.split.length))

/-- Place a new path: in the other slot when it is not valid, else as the newest split-stack entry (R202). -/
def Wave.place (w : Wave) (isB : Bool) (p : Path) : Wave :=
  if (w.slot (!isB)).valid then { w with split := w.split ++ [p] }
  else w.setSlot (!isB) { valid := true, path := p }

/-- A slot is eligible (R200). -/
def Wave.eligible (w : Wave) (isB : Bool) : Bool :=
  (w.slot isB).valid && !(w.path isB).park && (w.path isB).depth == w.depth

/-- The split-stack entry with which a slot that parks while the other is not eligible exchanges its record (R205). -/
def Wave.exchange (w : Wave) (isB : Bool) : Option Nat :=
  if w.eligible (!isB) then none else newestIx (fun p => !p.park && p.depth == w.depth) w.split

/-- R205: a slot parks while the other is not eligible. -/
def Wave.parked (w : Wave) (isB : Bool) : Wave :=
  if w.eligible (!isB) then w
  else match w.exchange isB with
    | some k => { w.setPath isB (w.split.getD k {}) with split := w.split.set k (w.path isB) }
    | none =>
      if w.slotA.valid && w.slotA.path.park then w.setPath false { w.slotA.path with park := false }
      else w.setPath true { w.slotB.path with park := false }

/-- A record parked on `Jn` (R194). -/
def Path.parkedOn (n : Nat) (p : Path) : Bool := p.park && p.pj.val == n

/-- Release every record parked on `Jn` without a merge (R203). -/
def Wave.unpark (w : Wave) (n : Nat) : Wave :=
  let f := fun (p : Path) => if p.parkedOn n then { p with park := false } else p
  { w with
    slotA := { w.slotA with path := if w.slotA.valid then f w.slotA.path else w.slotA.path }
    slotB := { w.slotB with path := if w.slotB.valid then f w.slotB.path else w.slotB.path }
    split := w.split.map f }

/-- The masks of every record but slot `isB`'s that is parked on `Jn` (R204). -/
def Wave.parkedOthers (w : Wave) (isB : Bool) (n : Nat) : List Path :=
  (if (w.slot (!isB)).valid && (w.path (!isB)).parkedOn n then [w.path (!isB)] else [])
    ++ w.split.filter (Path.parkedOn n)

/-- Take every record parked on `Jn`, but slot `isB`'s, out of the wave. -/
def Wave.dropParked (w : Wave) (isB : Bool) (n : Nat) : Wave :=
  let w' := if (w.slot (!isB)).valid && (w.path (!isB)).parkedOn n then w.setSlot (!isB) {} else w
  { w' with split := w.split.filter fun p => !p.parkedOn n }

/-- A J register has become 0 through EXIT: the records parked on it merge into one, which goes on (R206). -/
def Wave.mergeEmptied (w : Wave) (n : Nat) : Wave :=
  let join := fun (p : Path) (others : List Path) =>
    { p with park := false, mask := others.foldl (fun m q => m ||| q.mask) p.mask }
  if w.slotA.valid && w.slotA.path.parkedOn n then
    (w.dropParked false n).setPath false (join w.slotA.path (w.parkedOthers false n))
  else if w.slotB.valid && w.slotB.path.parkedOn n then
    (w.dropParked true n).setPath true (join w.slotB.path (w.parkedOthers true n))
  else
    match newestIx (Path.parkedOn n) w.split with
    | some k =>
      let others := (w.split.eraseIdx k).filter (Path.parkedOn n)
      { w with split := (w.split.set k (join (w.split.getD k {}) others)).filter fun q => !q.parkedOn n }
    | none => w

/-- Remove exited lanes from a record. -/
def Path.without (p : Path) (m : LaneMask) : Path := { p with mask := p.mask &&& ~~~ m }

/-- A slot left with no lane is not valid. -/
def Wave.emptied (w : Wave) (isB : Bool) : Wave :=
  if (w.slot isB).valid && (w.path isB).mask == 0 then w.setSlot isB { last := (w.slot isB).last } else w

/-- The lanes of a mask leave `Jn`; a register that becomes 0 merges what is parked on it (R206). -/
def Wave.leaveJ (w : Wave) (m : LaneMask) (n : Nat) : Wave :=
  let new := w.jOf n &&& ~~~ m
  if w.jOf n != 0 && new == 0 then (w.setJ n new).mergeEmptied n else w.setJ n new

/-- EXIT of some lanes of a wave (R206): they enter EXITED and leave every MASK and J register; a record left with no lane
goes. -/
def Wave.exitLanes (w : Wave) (m : LaneMask) : Wave :=
  let w1 := { w with
    exited := w.exited ||| m
    slotA := { w.slotA with path := w.slotA.path.without m }
    slotB := { w.slotB with path := w.slotB.path.without m }
    split := (w.split.map fun (p : Path) => p.without m).filter fun p => p.mask != 0 }
  let w2 := (List.range 8).foldl (fun w n => w.leaveJ m n) w1
  (w2.emptied false).emptied true

/-! ## Resuming -/

/-- The records of a wave. -/
def Wave.records (w : Wave) : List Path :=
  (if w.slotA.valid then [w.slotA.path] else []) ++ (if w.slotB.valid then [w.slotB.path] else []) ++ w.split

/-- The checks of R213 on an edited state.  A lane that was never launched may lie in a MASK: R213 does not list it. -/
def Wave.resumable (w : Wave) : Bool :=
  let rs := w.records
  (List.range 32).all (fun l =>
    if w.exited.getLsbD l then rs.all fun p => !p.mask.getLsbD l
    else !w.launched.getLsbD l || (rs.countP fun p => p.mask.getLsbD l) == 1)
  && rs.all (fun p => p.mask != 0)
  && decide (w.split.length ≤ w.splitMax)
  && w.nest.all (fun kv => decide (kv.2 ≤ 63))
  && (w.exited &&& ~~~ w.launched) == 0

/-- The slot that trapped fetches its instruction again (R213). -/
def Wave.refetch (w : Wave) : Wave :=
  match w.trap with
  | some r => w.setSlot r.slotB { w.slot r.slotB with waiting := false, held := none }
  | none => w

end Sys2Proof.Machine
end

