-- ==== Sys2Proof/Machine/Mem.lean ====
section
/-! DEFINITION. Storage at its home: the bytes of a location, its home die and local address (R18-R20), poison by 64-byte
sectors (R69, R70), and the lines an L2 home holds (R52-R57).

A location is one number: die * 2^37 + local address for HBM, the PA itself for the memory of a peer, 2^52 + address
for host memory, and from 2^53 the windows of a handler.  An unlisted byte reads 0 (DESIGN CHOICE, log entry 1). -/
namespace Sys2Proof.Machine

/-! ## Locations -/

def hbmTop : Nat := 2 ^ 40
def hostBase : Nat := 2 ^ 52

/-- A location of this device's HBM. -/
def isHbm (k : Nat) : Bool := decide (k < hbmTop)

/-- The XOR of the interleave slices of R19. -/
def dieOfPa (pa : Nat) : Nat :=
  (pa / 2 ^ 12 % 8) ^^^ (pa / 2 ^ 20 % 8) ^^^ (pa / 2 ^ 28 % 8) ^^^ (pa / 2 ^ 36 % 8)

/-- The location of a PA of local HBM, interleaved or die-local (R19). -/
def hbmKey (dl : Bool) (pa : Nat) : Nat :=
  if dl then pa % 2 ^ 40
  else dieOfPa pa * 2 ^ 37 + pa % 2 ^ 40 / 2 ^ 15 * 2 ^ 12 + pa % 2 ^ 12

/-- The interleaved PA of a location: PA[39:15] and PA[11:0] from the local address, PA[14:12] from the die (R19). -/
def paOfKey (k : Nat) : Nat :=
  let loc := k % 2 ^ 37
  let hi := loc / 2 ^ 12 * 2 ^ 15
  hi + ((k / 2 ^ 37) ^^^ dieOfPa hi) * 2 ^ 12 + loc % 2 ^ 12

/-- Channels of a die retired in force, and the first local address withdrawn (R72). -/
def State.localLimit (s : State) (die : Nat) : Nat := (128 - 2 * (s.chRetired.countP fun c => c.1 == die)) * 2 ^ 30

/-- Whether a location of HBM is present (R18, R72). -/
def State.present (s : State) (k : Nat) : Bool := decide (k % 2 ^ 37 < s.localLimit (k / 2 ^ 37))

/-- The route to peer `p` is valid (R406). -/
def State.peerRoute (s : State) (p : Nat) : Bool := (Sparse.get 0 s.izroute p : DWord).getLsbD 63

/-- The location a PA names with SYS = 0, or none where R18 gives no target. -/
def State.paKey (s : State) (dl : Bool) (pa : Nat) : Option Nat :=
  let t := pa / 2 ^ 44
  if pa / 2 ^ 40 % 16 ≠ 0 then none
  else if t = 0 then
    let k := hbmKey dl pa
    if s.present k then some k else none
  else if t ≤ 0x80 then if s.peerRoute t then some pa else none
  else none

/-! ## Bytes -/

/-- A byte of storage at its home; the windows of a handler are read as they stand (R414, R415). -/
def State.byte (s : State) (k : Nat) : Byte := if k < windowTop then Sparse.get 0 s.mem k else s.windowByte k
/-- Write a byte of storage at its home. -/
def State.setByte (s : State) (k : Nat) (v : Byte) : State := { s with mem := Sparse.set 0 s.mem k v }

/-- Whether the 64-byte sector of a location is poisoned. -/
def State.secPoison (s : State) (k : Nat) : Bool := Sparse.get false s.poison (k / 64)
def State.setSecPoison (s : State) (k : Nat) (v : Bool) : State :=
  { s with poison := Sparse.set false s.poison (k / 64) v }

/-- Bytes of storage at given locations. -/
def State.bytesAt (s : State) (ks : List Nat) : List Byte := ks.map s.byte

/-- A little-endian number of some bytes (R6). -/
def leNat (bs : List Byte) : Nat := bs.foldr (fun b acc => b.toNat + 256 * acc) 0
/-- The `n` bytes of a number, the lowest first (R6). -/
def leBytes (n v : Nat) : List Byte := (List.range n).map fun i => .ofNat 8 (v / 2 ^ (8 * i))

/-- `n` locations from `k` upward. -/
def span (k n : Nat) : List Nat := (List.range n).map fun i => k + i

/-- An 8-byte word at a home (page tables, queue entries, records). -/
def State.word64 (s : State) (k : Nat) : DWord := .ofNat 64 (leNat (s.bytesAt (span k 8)))

/-- The sectors that a list of locations covers wholly. -/
def wholeSectors (ks : List Nat) : List Nat :=
  ((ks.map fun k => k / 64).eraseDups).filter fun sec => (List.range 64).all fun i => ks.contains (sec * 64 + i)

/-- Write bytes at their homes with their mask: a sector written whole loses its poison, one written in part keeps it
(R70). -/
def State.writeBytes (s : State) (kvs : List (Nat × Byte)) : State :=
  let s := { s with mem := Sparse.setAll 0 s.mem kvs }
  if s.poison = [] then s
  else (wholeSectors (kvs.map Prod.fst)).foldl (fun s sec => s.setSecPoison (sec * 64) false) s

/-- Write bytes and mark their sectors poisoned. -/
def State.writePoisoned (s : State) (kvs : List (Nat × Byte)) : State :=
  let s := { s with mem := Sparse.setAll 0 s.mem kvs }
  (kvs.map fun kv => kv.1).foldl (fun s k => s.setSecPoison k true) s

/-- Consecutive bytes from a location, as writes. -/
def writesFrom (k : Nat) (bs : List Byte) : List (Nat × Byte) :=
  (List.range bs.length).map fun i => (k + i, bs.getD i 0)

/-! ## Compressed lines (R99-R109)

Memory holds the plain form of every line; `CmpSt.stored` holds the block of each line whose metadata has C = 1. -/

/-- Poison the four sectors of a line. -/
def State.poisonLine (s : State) (line : Nat) : State :=
  (List.range 4).foldl (fun s q => s.setSecPoison (256 * line + 64 * q) true) s

/-- The bytes of a line. -/
def State.lineBytes (s : State) (line : Nat) : List Byte := s.bytesAt (span (256 * line) 256)

/-- The expanders of R106 by number: an HBM channel controller, an L2 egress, a core, a transform pipe, a cluster
transform unit. -/
def expHbm (k : Nat) : Nat :=
  let a := k % 2 ^ 37
  k / 2 ^ 37 * 64 + ((a / 2 ^ 8 % 64) ^^^ (a / 2 ^ 14 % 64))
def expL2 (k : Nat) : Nat := 512 + k / 2 ^ 37 * 32 + k / 2 ^ 8 % 32
def expCore (core : Nat) : Nat := 768 + core
def expPipe (core pipe : Nat) : Nat := 928 + core * 8 + pipe
def expCtu (cluster : Nat) : Nat := 2208 + cluster
def expanderCount : Nat := 2248

/-- The slots of an expander, the one loaded earlier first. -/
def State.expSlots (s : State) (e : Nat) : List TabSlot := Sparse.get [] s.cmp.slots e
/-- The table of a generation in an expander. -/
def State.expTable (s : State) (e gen : Nat) : Option (List Nat) :=
  ((s.expSlots e).find? fun t => t.gen == gen).map TabSlot.lens

/-- The stored block of a line; empty for a plain line. -/
def State.blockOf (s : State) (line : Nat) : List Byte := Sparse.get [] s.cmp.stored line
def State.setBlockOf (s : State) (line : Nat) (b : List Byte) : State :=
  { s with cmp := { s.cmp with stored := Sparse.set [] s.cmp.stored line b } }

/-- Whether an expander turns a block into its plain form: the table of a prefix block must be in a slot (R106). -/
def State.expands (s : State) (e : Nat) (block : List Byte) : Bool :=
  blockCodec block != 2 || (s.expTable e (blockTgen block)).isSome

/-- What an expander makes of a block: none where its table is in no slot or the block does not decode (R103, R106). -/
def State.expand (s : State) (e : Nat) (block : List Byte) : Option (List Byte) :=
  expandBlock ((s.expTable e (blockTgen block)).getD []) block

/-- The block in which the home holds the line of a location: its stored form, unless the L2 holds that sector plain (R104, R107). -/
def State.heldBlock (s : State) (k : Nat) : List Byte :=
  match s.blockOf (k / 256), s.l2.lines.find? (fun e => e.loc == k / 256 * 256) with
  | b, some e => if e.plain && (e.valid.getLsbD (k / 64 % 4) || e.dirty != 0) then [] else b
  | b, none => b

/-- The HBM channel of a location (R68); a channel whose retirement is in force is served by a surviving one of its die, which the
manual does not name (R72; DESIGN CHOICE, log entry 50). -/
def State.channelOf (s : State) (k : Nat) : Nat :=
  let c := expHbm k
  let alive := (List.range 64).filter fun i => !s.chRetired.contains (c / 64, i)
  if s.chRetired.contains (c / 64, c % 64) then c / 64 * 64 + alive.getD (Config.channelFor (k / 256) % alive.length) (c % 64) else c

/-- The expander at which a reader that wants the plain form from the home receives a block: the HBM controller on a fill, or the
egress of the L2 (R104). -/
def State.expHome (s : State) (k : Nat) (block : List Byte) : Nat := if blockExp block = 0 then s.channelOf k else expL2 k

/-- A reader of the plain form from the home meets a block whose table its expander does not hold (R106). -/
def State.homeStale (s : State) (k : Nat) : Bool :=
  isHbm k && s.cmp.stored != [] && (let b := s.heldBlock k; b != [] && !s.expands (s.expHome k b) b)

/-- The lines that some locations of HBM lie in. -/
def hbmLines (ks : List Nat) : List Nat := ((ks.filter isHbm).map fun k => k / 256).eraseDups

/-- An entry of the granule map or header table: the cached copy or the entry itself, which is then cached (R102). -/
def State.cmpRead (s : State) (k bytes : Nat) : State × Nat :=
  let now := leNat (s.bytesAt (span k bytes))
  match s.cmp.cached.find? fun e => e.1 == k with
  | some e => if Config.readsCached s.choice k then (s, e.2.toNat) else (s, now)
  | none => ({ s with cmp := { s.cmp with cached := Sparse.put k (.ofNat 64 now) s.cmp.cached } }, now)

/-! ## HBM granules (R53, R69, R70) -/

def State.hbmOf (s : State) (c : Nat) : HbmSt := Sparse.get {} s.hbm c
def State.setHbm (s : State) (c : Nat) (h : HbmSt) : State := { s with hbm := Sparse.set {} s.hbm c h }

/-- A corrected error of a channel is counted (R69). -/
def State.countHbm (s : State) (k : Nat) : State :=
  let h := s.hbmOf (s.channelOf k)
  s.setHbm (s.channelOf k) { h with ce := h.ce + 1, ceSince := if h.ce = 0 then s.clk else h.ceSince }

/-- The poison of an uncorrectable error in a granule: its sector's; of one in a stored sector of a compressed block the whole line's
(R70, R109).  Beyond the block nothing is read. -/
def State.granulePoison (s : State) (k : Nat) : State :=
  if k % 256 / 64 * 64 < (s.blockOf (k / 256)).length then s.poisonLine (k / 256)
  else if s.blockOf (k / 256) = [] then s.setSecPoison k true
  else s

/-- An uncorrectable error met in a granule: what it poisons, and the event is logged (R70). -/
def State.uncorrectable (s : State) (k : Nat) : State :=
  (s.granulePoison k).logError 0x10 3 (k / 2 ^ 37) (s.channelOf k % 64) 31 (.ofNat 64 (paOfKey k))

/-- The error of a granule that HBM holds: 0 none. -/
def State.granuleErr (s : State) (k : Nat) : Nat := Sparse.get 0 s.hbmErr (k / 32)
def State.setGranuleErr (s : State) (k n : Nat) : State := { s with hbmErr := Sparse.set 0 s.hbmErr (k / 32) n }

/-- The controller reads a granule: it corrects and counts what it can, and what it cannot poisons (R69, R70). -/
def State.granuleRead (s : State) (k : Nat) : State :=
  match s.granuleErr k with
  | 0 => s
  | 1 => s.countHbm k
  | _ => if s.secPoison k then s else s.uncorrectable k

/-- The granules of a line that a fill reads: those of the sectors it lacks, of a compressed line those its block occupies. -/
def State.hbmFill (s : State) (base : Nat) (secs : BitVec 4) : State :=
  if s.hbmErr = [] || secs = 0 then s
  else
    let n := (s.blockOf (base / 256)).length
    (List.range 8).foldl (fun s i =>
      if (if n = 0 then secs.getLsbD (i / 2) else decide (32 * i < (n + 63) / 64 * 64)) then s.granuleRead (base + 32 * i) else s) s

/-- The granules that the dirty bytes of a line go to: one written whole loses its error, one written in part is read and merged
first (R53). -/
def State.hbmMerge (s : State) (base : Nat) (dirty : BitVec 256) : State :=
  if s.hbmErr = [] then s
  else (List.range 8).foldl (fun s i =>
    let k := base + 32 * i
    let m := (dirty >>> (32 * i)).setWidth 32
    if m = 0 then s
    else if m = 0xFFFFFFFF#32 then s.setGranuleErr k 0
    else (s.granuleRead k).setGranuleErr k 0) s

/-- The write-back of a dirty line from a home L2 (R108, R109): its dirty bytes as they are, or a block, for which the sectors it
lacks are fetched first. -/
def State.writeBack (s : State) (e : L2Line) : State :=
  let k := e.loc
  let line := k / 256
  let asPlain := fun (s : State) => (s.hbmMerge k e.dirty).setBlockOf line []
  if !s.cmp.en then asPlain s
  else
    let m := s.cmpRead (hbmKey false (s.cmp.map + 2 * (k / 2 ^ 37 * 2 ^ 21 + k % 2 ^ 37 / 2 ^ 16))) 2
    let s := m.1
    if m.2 / 2 ^ 12 ≠ 8 then asPlain s
    else
      let h := s.cmpRead (hbmKey false (s.cmp.hdr + 16 * (m.2 % 2 ^ 12))) 8
      let s := h.1
      let w : DWord := .ofNat 64 h.2
      if !w.getLsbD 63 || bits w 51 0 != 0 then asPlain s
      else
        let s := s.hbmFill k (~~~ e.valid)
        let tgen := bits w 55 52
        let pre := if w.getLsbD 58 then (s.expTable (expL2 k) tgen).map fun t => (tgen, t) else none
        if (List.range 4).any fun q => s.secPoison (256 * line + 64 * q) then (s.hbmMerge k (~~~ 0)).setBlockOf line []
        else (s.hbmMerge k (~~~ 0)).setBlockOf line
          ((encodeLine (bits w 62 61) (w.getLsbD 60) (w.getLsbD 59) (bits w 57 56) pre (s.lineBytes line)).getD [])

/-! ## L2 homes (R52-R57) -/

/-- The slice and set of a location in its home's L2 (R52). -/
def l2Set (k : Nat) : Nat :=
  let a := k % 2 ^ 37
  (k / 2 ^ 37) * 2 ^ 14 + (a / 2 ^ 8 % 32) * 2 ^ 9 + ((a / 2 ^ 13 % 512) ^^^ (a / 2 ^ 22 % 512))

/-- The owner class of a way (R55). -/
def L2St.owner (l : L2St) (way : Nat) : Nat := l.own.toNat / 4 ^ way % 4

/-- A class is idle on a die: it has allocated no line there during the last 4,096 clk (R56), counted from reset where it never has
(DESIGN CHOICE, log entry 9). -/
def L2St.isIdle (l : L2St) (clk die cls : Nat) : Bool := decide (Sparse.get 0 l.last (die * 4 + cls) + 4095 ≤ clk)

/-- The way class `cls` takes in a set whose lines, most recent first, are `all`: the first victim of R57, or none.  Ways retired by
errors are never taken (R71).  In step 4 an empty way of an idle owner comes before its least recently used line, which R57 does not
say (DESIGN CHOICE, log entry 51). -/
def L2St.victim (l : L2St) (clk die set cls : Nat) (all : List L2Line) : Option Nat :=
  let ls := all.filter fun e => e.valid != 0 || e.dirty != 0
  let ways := (List.range 16).filter fun w => !l.retired.contains (set, w)
  let owned := ways.filter fun w => l.owner w == cls
  let free := owned.find? fun w => !ls.any fun e => e.way == w
  let lru := fun (p : L2Line → Bool) => (ls.reverse.find? p).map L2Line.way
  match free with
  | some w => some w
  | none =>
    match lru (fun e => owned.contains e.way && e.cls.val != cls) with
    | some w => some w
    | none =>
      match lru (fun e => owned.contains e.way) with
      | some w => some w
      | none =>
        let idleWays := ways.filter fun w => l.isIdle clk die (l.owner w)
        match idleWays.find? (fun w => !ls.any fun e => e.way == w) with
        | some w => some w
        | none => lru (fun e => idleWays.contains e.way)

/-- A line put into its home L2 at the front, allocated for the class where a victim is found (R57); a line that cannot be allocated
has its dirty bytes written to HBM through the slice (R57). -/
def State.l2Put (s : State) (e : L2Line) : State :=
  let die := e.loc / 2 ^ 37
  match s.l2.victim s.clk die (l2Set e.loc) e.cls.val (s.l2.lines.filter fun x => l2Set x.loc == l2Set e.loc) with
  | none =>
    if e.dirty = 0 then s
    else { (s.hbmMerge e.loc e.dirty).setBlockOf (e.loc / 256) [] with l2 := { s.l2 with moves := s.l2.moves + 1 } }
  | some w =>
    let there := fun (x : L2Line) => l2Set x.loc == l2Set e.loc && x.way == w
    let s := match s.l2.lines.find? there with
      | some v => if v.dirty != 0 then s.writeBack v else s
      | none => s
    { s with l2 := { s.l2 with
        lines := { e with way := w } :: s.l2.lines.filter fun x => !there x
        idle := Sparse.set false s.l2.idle (die * 4 + e.cls.val) false
        last := Sparse.set 0 s.l2.last (die * 4 + e.cls.val) (s.clk + 1) } }

/-- A transfer to or from HBM (R68). -/
def State.moved (s : State) : State := { s with l2 := { s.l2 with moves := s.l2.moves + 1 } }

/-- An access at the home L2 of a line of HBM: the sectors it reads become valid, those it lacks come from HBM, the bytes it writes
become dirty (R53); the line becomes the most recent.  A block whose EXP is 00 is held plain, whole (R104).  The data of every line
is the storage's own. -/
def State.l2Access (s : State) (base cls : Nat) (sectors : BitVec 4) (bytes : BitVec 256) : State :=
  match s.l2.lines.find? (fun e => e.loc == base) with
  | some e =>
    let lack := sectors &&& ~~~ e.valid
    let s := if lack = 0 then s else (s.hbmFill base lack).moved
    let e' := { e with valid := e.valid ||| sectors, dirty := e.dirty ||| bytes }
    { s with l2 := { s.l2 with lines := e' :: s.l2.lines.filter fun e => e.loc != base } }
  | none =>
    let s := if sectors = 0 then s else (s.hbmFill base sectors).moved
    let b := s.blockOf (base / 256)
    let asPlain := b = [] || (blockExp b = 0 && s.expands (s.channelOf base) b) || bytes != 0
    s.l2Put ⟨base, 0, .ofNat 4 cls, if b = [] || !asPlain || sectors = 0 then sectors else 0xF, bytes, asPlain⟩

/-- The home L2 holds a location: in a valid sector or as a dirty byte (R46, R53). -/
def State.inL2 (s : State) (k : Nat) : Bool :=
  s.l2.lines.any fun e => e.loc == k / 256 * 256 && (e.valid.getLsbD (k / 64 % 4) || e.dirty.getLsbD (k % 256))

/-- The sectors and the bytes of a line that some locations name. -/
def lineSectors (base : Nat) (ks : List Nat) : BitVec 4 :=
  ks.foldl (fun m k => if k / 256 * 256 == base then m ||| (1#4 <<< (k / 64 % 4)) else m) 0
def lineBytesOf (base : Nat) (ks : List Nat) : BitVec 256 :=
  ks.foldl (fun m k => if k / 256 * 256 == base then m ||| (1#256 <<< (k % 256)) else m) 0

/-- An access of some locations at their home L2s: a read fetches the sectors it lacks, a write merges its bytes (R53). -/
def State.l2TouchAll (s : State) (ks : List Nat) (cls : Nat) (write : Bool) : State :=
  (((ks.filter isHbm).map fun k => k / 256 * 256).eraseDups).foldl (fun s base =>
    if write then s.l2Access base cls 0 (lineBytesOf base ks) else s.l2Access base cls (lineSectors base ks) 0) s

/-- An access of one location at its home L2. -/
def State.l2Touch (s : State) (k cls : Nat) (write : Bool) : State := s.l2TouchAll [k] cls write

/-! ## Calendar slots (R61, R64, R68) -/

/-- Owner and borrower of the slot of the clk in a calendar: 0 NoC, 1 HBM, 2 dispatch. -/
def State.calSlot (s : State) (cal : Nat) : Nat × Nat :=
  let n := s.clk % 64
  let nib := bits (s.tt.force.getD (4 * cal + n / 16) 0) (4 * (n % 16) + 3) (4 * (n % 16))
  (nib / 4, nib % 4)

/-- A class that a slot of a calendar may serve where it alone has work: the slot's owner or its borrower. -/
def State.slotFor (s : State) (cal cls : Nat) : Bool := (s.calSlot cal).1 == cls || (s.calSlot cal).2 == cls

/-- An answer that moved data to or from HBM for a class does so only in a slot of the HBM calendar that the class may use (R64, R68). -/
def heldToSlot (s : State) (cls : Nat) (r : Out) : Out :=
  match r with
  | .next t => if t.l2.moves != s.l2.moves && !s.slotFor 1 cls then .fault .eventCannotOccur else .next t
  | r => r

/-! ## Protected storage (R21, R22, R24) -/

/-- The Landing heap is in force (R24). -/
def State.heapInForce (s : State) : Bool := s.lreg.en || s.lreg.onpend || s.lreg.offpend

/-- The interleaved PA bounds of the enabled context ranges of one VM (R21). -/
def State.ctxRanges (s : State) (vm : Nat) : List (Nat × Nat) :=
  (List.range 4).filterMap fun i =>
    let r : DWord := Sparse.get 0 s.x.ctxrange (4 * vm + i)
    if r.getLsbD 0 && decide (bits r 32 2 ≤ bits r 63 33) then some (bits r 32 2 * 2 ^ 21, (bits r 63 33 + 1) * 2 ^ 21) else none

/-- The interleaved PA bounds of all protected storage (R22). -/
def State.protRanges (s : State) : List (Nat × Nat) :=
  ((List.range 17).flatMap fun n => s.ctxRanges n)
    ++ (if s.heapInForce then [(s.lreg.base, s.lreg.base + s.lreg.size * 2 ^ 30)] else [])

/-- The interleaved PAs that a page of local HBM spans: its own, or for a die-local page those of its local addresses. -/
def pageSpan (dl : Bool) (pa size : Nat) : Nat × Nat :=
  if dl then (pa % 2 ^ 37 / 2 ^ 12 * 2 ^ 15, (pa % 2 ^ 37 + size) / 2 ^ 12 * 2 ^ 15) else (pa, pa + size)

/-- Whether a page of local HBM maps a byte of protected storage (R22). -/
def State.touchesProtected (s : State) (dl : Bool) (pa size : Nat) : Bool :=
  let p := pageSpan dl pa size
  s.protRanges.any fun r => decide (r.1 < p.2) && decide (p.1 < r.2)

/-- Whether a page of local HBM lies wholly in the context ranges of a VM (R22). -/
def State.insideContext (s : State) (vm : Nat) (dl : Bool) (pa size : Nat) : Bool :=
  let p := pageSpan dl pa size
  let units := (List.range ((p.2 - 1) / 2 ^ 21 + 1 - p.1 / 2 ^ 21)).map fun i => p.1 / 2 ^ 21 + i
  units.all fun u => (s.ctxRanges vm).any fun r => decide (r.1 ≤ u * 2 ^ 21) && decide (u * 2 ^ 21 < r.2)

/-- Whether a location is protected storage (R22). -/
def State.isProtected (s : State) (k : Nat) : Bool :=
  isHbm k && s.protRanges.any fun r => decide (r.1 ≤ paOfKey k) && decide (paOfKey k < r.2)

/-! ## The Landing heap (R90) and masked writes -/

/-- Payload lines of the heap, and those of one die's slice (R90). -/
def State.payLines (s : State) : Nat := 63 * s.lreg.size * 2 ^ 16
def State.sliceLines (s : State) : Nat := 63 * s.lreg.size * 2 ^ 13

/-- The location of a Landing-window offset (R24). -/
def State.heapKey (s : State) (off : Nat) : Nat := hbmKey false (s.lreg.base + off)

/-- The location of a payload line's word of the line map. -/
def State.lmKey (s : State) (line : Nat) : Nat := s.heapKey (63 * s.lreg.size * 2 ^ 24 + 4 * line)

/-- A payload line's word: LST in [31:30], WE, RD, LOWN in [27:23], LACL in [15:0]. -/
def State.lmWord (s : State) (line : Nat) : Word := .ofNat 32 (leNat (s.bytesAt (span (s.lmKey line) 4)))

/-- The payload line that a location belongs to while the heap is in force. -/
def State.payLineOf (s : State) (k : Nat) : Option Nat :=
  if s.heapInForce && isHbm k then
    let pa := paOfKey k
    let line := (pa - s.lreg.base) / 256
    if s.lreg.base ≤ pa && line < s.payLines then some line else none
  else none

/-- A write that reaches its home is kept, but for one to a payload line whose WE is clear (R92). -/
def State.keepsWrite (s : State) (k : Nat) : Bool :=
  match s.payLineOf k with
  | some line => (s.lmWord line).getLsbD 29
  | none => true

/-- A masked write, an atomic or a partial DISCARD reaches a compressed line: the home L2 fetches the block, expands it and keeps the
line plain and dirty; where it cannot, the line is poisoned and the event logged (R106, R107).  The block stays in HBM until the
line is written back (R99, R108). -/
def State.plainLine (s : State) (cls line : Nat) : State :=
  let base := 256 * line
  let b := s.heldBlock base
  if b = [] then s
  else
    let s := (s.hbmFill base 0xF).moved
    let s := if (s.expand (expL2 base) b).isSome then s
      else (s.poisonLine line).logError 0x15 1 (base / 2 ^ 37) 0 31 (.ofNat 64 (paOfKey base))
    match s.l2.lines.find? (fun e => e.loc == base) with
    | some e =>
      { s with l2 := { s.l2 with
          lines := { e with valid := 0xF, dirty := ~~~ 0, plain := true } :: s.l2.lines.filter fun e => e.loc != base } }
    | none => s.l2Put ⟨base, 0, .ofNat 4 cls, 0xF, ~~~ 0, true⟩

/-- A masked write performed at its homes (R53, R107), or in the windows of a handler. -/
def State.homeStore (s : State) (cls : Nat) (kvs : List (Nat × Byte)) : State :=
  let win := kvs.filter fun kv => decide (windowTop ≤ kv.1)
  let s := if win = [] then s else s.windowStore win
  let kvs := kvs.filter fun kv => decide (kv.1 < windowTop)
  let s := if s.cmp.stored = [] then s else (hbmLines (kvs.map Prod.fst)).foldl (fun s ln => s.plainLine cls ln) s
  (s.writeBytes kvs).l2TouchAll (kvs.map Prod.fst) cls true

/-- Writes of the device's own, in class BG, that cover every line of a region whole (R90, R413): the bytes that are not zero are `cells`.
A line that its home L2 holds takes them and becomes the most recent; the others are written on to HBM through the slice's merge path and take
no way (R53; DESIGN CHOICE, log entry 51).  Blocks, poison and errors that stood there are gone (R69, R70, R107). -/
def State.coverLines (s : State) (inside : Nat → Bool) (cells : List Host.Cell) : State :=
  let held := s.l2.lines.filter fun e => inside e.loc
  let kept := fun (k : Nat) => !inside k || held.any fun e => e.loc == k / 256 * 256
  { s with
    mem := Sparse.setAll 0 (s.mem.filter fun c => !inside c.1) cells
    poison := s.poison.filter fun p => !inside (64 * p.1)
    hbmErr := s.hbmErr.filter fun p => kept (32 * p.1)
    cmp := { s.cmp with stored := s.cmp.stored.filter fun p => kept (256 * p.1) }
    l2 := { s.l2 with
      lines := held.map (fun e => { e with valid := 0xF, dirty := ~~~ 0, plain := true }) ++ s.l2.lines.filter fun e => !inside e.loc } }

/-- A masked write of a program or engine that reaches its homes: what R92 lets be kept is performed. -/
def State.homeWrite (s : State) (cls : Nat) (kvs : List (Nat × Byte)) : State :=
  s.homeStore cls (if s.heapInForce then kvs.filter fun kv => s.keepsWrite kv.1 else kvs)

end Sys2Proof.Machine
end

