-- ==== Sys2Proof/Machine/L1.lean ====
section
/-! DEFINITION. The L1 data cache of each core (R46-R50): loads, stores, eviction, and its actions at the synchronisation
points of R48 and R115.  `CoreSt.l1` lists the lines, most recently used first; a line with no valid sector and no dirty
byte is a free way and is not listed. -/
namespace Sys2Proof.Machine

/-! ## Lines -/

def L1Line.byte (ln : L1Line) (i : Nat) : Byte := ln.data.extractLsb' (8 * i) 8

def L1Line.setByte (ln : L1Line) (i : Nat) (v : Byte) : L1Line :=
  { ln with data := (ln.data &&& ~~~ ((0xFF : BitVec 2048) <<< (8 * i))) ||| (v.setWidth 2048 <<< (8 * i)) }

def L1Line.isDirty (ln : L1Line) (i : Nat) : Bool := ln.dirty.getLsbD i
def L1Line.secValid (ln : L1Line) (i : Nat) : Bool := ln.valid.getLsbD (i / 64)
/-- A load of byte `i` hits: the line holds a block, its sector is valid or the byte is dirty (R47, R104). -/
def L1Line.hits (ln : L1Line) (i : Nat) : Bool := ln.comp != [] || ln.secValid i || ln.isDirty i
/-- The dirty bytes of sector `q`. -/
def L1Line.secDirty (ln : L1Line) (q : Nat) : Bool := (ln.dirty >>> (64 * q)).setWidth 64 != 0#64

/-- The dirty bytes of a line, as writes to its home, in some of its sectors. -/
def L1Line.writes (ln : L1Line) (secs : List Nat) : List (Nat × Byte) :=
  (secs.flatMap fun q => span (64 * q) 64).filterMap fun i => if ln.isDirty i then some (ln.loc + i, ln.byte i) else none

/-- The set of a location (R46). -/
def l1Set (k : Nat) : Nat := k / 256 % 128

def CoreSt.line (c : CoreSt) (k : Nat) : Option L1Line := c.l1.find? fun ln => ln.loc == k / 256 * 256

/-- Put a line at the front of its core's list; drop it where it holds nothing. -/
def CoreSt.putLine (c : CoreSt) (ln : L1Line) : CoreSt :=
  let rest := c.l1.filter fun e => e.loc != ln.loc
  { c with l1 := if ln.valid == 0 && ln.dirty == 0 then rest else ln :: rest }

/-- Change a line in place, without touching its age. -/
def CoreSt.mapLines (c : CoreSt) (f : L1Line → L1Line) : CoreSt :=
  { c with l1 := (c.l1.map f).filter fun ln => !(ln.valid == 0 && ln.dirty == 0) }

/-! ## Sending dirty bytes home -/

/-- Send the dirty bytes of some sectors of a line home with their mask; a poisoned sector arrives poisoned (R70, R71).
No line holds a window of a handler, whose accesses bypass the L1. -/
def State.sendHome (s : State) (cls : Nat) (ln : L1Line) (secs : List Nat) : State :=
  let s := s.homeWrite cls ((ln.writes secs).filter fun kv => decide (kv.1 < windowTop))
  secs.foldl (fun s q => if ln.poison.getLsbD q && ln.secDirty q then s.setSecPoison (ln.loc + 64 * q) true else s) s

/-- Some dirty bits without those of some sectors. -/
def cleanBytes (dirty : BitVec 256) (secs : List Nat) : BitVec 256 :=
  secs.foldl (fun d q => d &&& ~~~ (((2 ^ 64 - 1 : Nat) : BitVec 256) <<< (64 * q))) dirty

/-- Every sector of a line. -/
def allSectors : List Nat := [0, 1, 2, 3]

/-- A sector that holds nothing holds no poison. -/
def L1Line.tidy (ln : L1Line) : L1Line :=
  { ln with poison := allSectors.foldl (fun p q =>
      if ln.valid.getLsbD q || ln.secDirty q then p else p &&& ~~~ (1#4 <<< q)) ln.poison }

/-- Mark a line clean in some sectors. -/
def L1Line.clean (ln : L1Line) (secs : List Nat) : L1Line := { ln with dirty := cleanBytes ln.dirty secs }.tidy

/-- Clear the valid bits of some sectors; a block goes whole. -/
def L1Line.invalidate (ln : L1Line) (secs : List Nat) : L1Line :=
  if ln.comp != [] && secs != [] then { ln with valid := 0, comp := [] }.tidy
  else { ln with valid := secs.foldl (fun v q => v &&& ~~~ ((1 : BitVec 4) <<< q)) ln.valid }.tidy

/-- The least recently used line of a set. -/
def CoreSt.lru (c : CoreSt) (k : Nat) : Option L1Line := c.l1.reverse.find? fun ln => l1Set ln.loc == l1Set k

/-- The ways of a set: eight, but for those that errors have retired (R71). -/
def CoreSt.waysOf (c : CoreSt) (set : Nat) : Nat := 8 - c.retired.countP fun r => r.1 == set

/-- Every way of a location's set is retired, so that the L1 cannot hold it (R71; DEDUCED, log entry 41). -/
def CoreSt.noWay (c : CoreSt) (k : Nat) : Bool := c.waysOf (l1Set k) == 0

/-- Make room for a line: with every way of its set in use the least recently used line is sent home and freed (R46, R47), its dirty
bytes in the class of the access that takes its place (DESIGN CHOICE, log entry 51). -/
def State.l1Room (s : State) (core cls k : Nat) : State :=
  let c := s.core core
  if (c.line k).isSome || decide ((c.l1.countP fun ln => l1Set ln.loc == l1Set k) < c.waysOf (l1Set k)) then s
  else match c.lru k with
    | none => s
    | some v => (s.sendHome cls v allSectors).updCore core fun c => { c with l1 := c.l1.filter fun ln => ln.loc != v.loc }

/-- The line of a location, or an empty one. -/
def State.l1Line (s : State) (core k : Nat) : L1Line :=
  ((s.core core).line k).getD ⟨k / 256 * 256, 0, 0, 0, 0, []⟩

/-- Bytes of a line beneath its dirty bytes (R47). -/
def L1Line.merge (ln : L1Line) (at_ : List Nat) (f : Nat → Byte) : L1Line :=
  at_.foldl (fun ln i => if ln.isDirty i then ln else ln.setByte i (f i)) ln

/-- A line held compressed expanded in place by its core, before a store or where its stream does not decode (R103, R104): plain and
valid, poisoned where the core cannot expand it, and the event logged (R70, R106). -/
def State.l1Expand (s : State) (core k : Nat) : State :=
  match (s.core core).line k with
  | none => s
  | some ln =>
    if ln.comp = [] then s
    else
      match s.expand (expCore core) ln.comp with
      | some bs => s.updCore core fun c => c.putLine { ln.merge (List.range 256) (fun i => bs.getD i 0) with valid := 0xF, comp := [] }
      | none => (s.updCore core fun c => c.putLine { ln with valid := 0xF, poison := 0xF, comp := [] }).logError
          0x15 2 (core / 20) (core / 4 % 5) 31 (.ofNat 64 (paOfKey (k / 256 * 256)))

/-- Fetch a sector from its home beneath the dirty bytes (R47).  A block with EXP = 10 that the leaf lets pass comes whole, and stays
compressed in a line that holds nothing else (R104). -/
def State.l1Fetch (s : State) (core cls : Nat) (cmp : Bool) (k : Nat) : State :=
  let b := if cmp && isHbm k && s.cmp.stored != [] then s.heldBlock k else []
  let s := (s.l1Room core cls k).l2Touch k cls false
  let ln := s.l1Line core k
  if b != [] && blockExp b == 2 then
    let bad := allSectors.any fun q => s.secPoison (ln.loc + 64 * q)
    let block := { ln with valid := 0xF, comp := b, poison := if bad then 0xF else ln.poison }
    if ln.valid = 0 && ln.dirty = 0 then s.updCore core fun c => c.putLine block
    else (s.updCore core fun c => c.putLine block).l1Expand core k
  else
    let q := k / 64 % 4
    let ln1 := ln.merge (span (64 * q) 64) fun i => s.byte (ln.loc + i)
    let bit : BitVec 4 := 1#4 <<< q
    let ln2 := { ln1 with
      valid := ln1.valid ||| bit
      poison := if s.secPoison k || (ln.poison.getLsbD q && ln.secDirty q) then ln1.poison ||| bit else ln1.poison &&& ~~~ bit }
    s.updCore core fun c => c.putLine ln2

/-! ## Loads and stores through the L1 (R47) -/

/-- Make every byte of a load present, through a leaf with CMP as given. -/
def State.l1Ensure (s : State) (core cls : Nat) (cmp : Bool) (ks : List Nat) : State :=
  ks.foldl (fun s k =>
    match (s.core core).line k with
    | some ln =>
      if !ln.hits (k % 256) then s.l1Fetch core cls cmp k
      else s.updCore core fun c => c.putLine ln
    | none => s.l1Fetch core cls cmp k) s

/-- A load meets a block of the L1 that does not decode: the line is uncorrectable (R103). -/
def State.l1Undecoded (s : State) (core k : Nat) : State :=
  match (s.core core).line k with
  | some ln => if ln.comp != [] && (s.expand (expCore core) ln.comp).isNone then s.l1Expand core k else s
  | none => s

/-- A byte of the L1, with the poison of its sector; a block is expanded by the core on its way to the registers (R104). -/
def State.l1Byte (s : State) (core k : Nat) : Byte × Bool :=
  let ln := s.l1Line core k
  if ln.comp = [] then (ln.byte (k % 256), ln.poison.getLsbD (k / 64 % 4))
  else match s.expand (expCore core) ln.comp with
    | some bs => (bs.getD (k % 256) 0, ln.poison != 0)
    | none => (0, true)

/-- The sectors that some writes cover whole lose their poison in a core's L1 (R70). -/
def CoreSt.heal (c : CoreSt) (ks : List Nat) : CoreSt :=
  (wholeSectors ks).foldl (fun c sec => c.mapLines fun ln =>
    if ln.loc == sec * 64 / 256 * 256 then { ln with poison := ln.poison &&& ~~~ (1#4 <<< (sec % 4)) } else ln) c

/-- Store bytes into the L1: dirty, a line allocated where none is present, nothing read (R47); a line held compressed is expanded in
place first (R104).  A sector written whole loses its poison (R70). -/
def State.l1Store (s : State) (core cls : Nat) (kvs : List (Nat × Byte)) : State :=
  let s := kvs.foldl (fun s kv =>
    let s := (s.l1Room core cls kv.1).l1Expand core kv.1
    let ln := (s.l1Line core kv.1).setByte (kv.1 % 256) kv.2
    s.updCore core fun c => c.putLine { ln with dirty := ln.dirty ||| (1#256 <<< (kv.1 % 256)) }) s
  s.updCore core fun c => c.heal (kvs.map Prod.fst)

/-! ## Synchronisation (R48, R115) -/

/-- Clear every valid bit of a core's L1: an acquire at cluster scope or wider. -/
def State.l1Acquire (s : State) (core : Nat) : State := s.updCore core fun c => c.mapLines fun ln => ln.invalidate allSectors

/-- Send home every dirty byte of a core's L1, whichever block wrote it: a release at cluster scope or wider.  The lines
stay valid and clean. -/
def State.l1Release (s : State) (core cls : Nat) : State :=
  let s := (s.core core).l1.foldl (fun s ln => s.sendHome cls ln allSectors) s
  s.updCore core fun c => c.mapLines fun ln => ln.clean allSectors

/-- Acquire and release of a scope on one core: nothing below cluster scope (R115). -/
def wideScope : Scope → Bool
  | .wave | .block => false
  | _ => true

def State.acquire (s : State) (core : Nat) (sc : Scope) : State := if wideScope sc then s.l1Acquire core else s
def State.release (s : State) (core cls : Nat) (sc : Scope) : State := if wideScope sc then s.l1Release core cls else s

/-- Send home the dirty bytes of the sectors that some locations lie in (R49, R126). -/
def State.l1SendSectors (s : State) (core cls : Nat) (ks : List Nat) : State :=
  let secs := (ks.map fun k => k / 64).eraseDups
  let s := (s.core core).l1.foldl (fun s ln =>
    s.sendHome cls ln (allSectors.filter fun q => secs.contains (ln.loc / 64 + q))) s
  s.updCore core fun c => c.mapLines fun ln => ln.clean (allSectors.filter fun q => secs.contains (ln.loc / 64 + q))

/-- Clear the valid bits of the sectors that some locations lie in (R48, R126). -/
def State.l1Drop (s : State) (core : Nat) (ks : List Nat) : State :=
  let secs := (ks.map fun k => k / 64).eraseDups
  s.updCore core fun c => c.mapLines fun ln => ln.invalidate (allSectors.filter fun q => secs.contains (ln.loc / 64 + q))

/-- Before an atomic: the sector's dirty bytes go home and its valid bit is cleared (R48). -/
def State.l1Atomic (s : State) (core cls : Nat) (ks : List Nat) : State := (s.l1SendSectors core cls ks).l1Drop core ks

/-- DISCARD in the issuing core: the sectors lose their valid and dirty bits (R48, R131). -/
def State.l1Discard (s : State) (core : Nat) (secs : List Nat) : State :=
  s.updCore core fun c => c.mapLines fun ln =>
    let qs := allSectors.filter fun q => secs.contains (ln.loc / 64 + q)
    (ln.invalidate qs).clean qs

/-- An ST.rel at cluster scope or wider updates any copy of its bytes in the issuing core's L1 (R115). -/
def State.l1Update (s : State) (core : Nat) (kvs : List (Nat × Byte)) : State :=
  (kvs.foldl (fun s kv => (s.l1Expand core kv.1).updCore core fun c => c.mapLines fun ln =>
    if ln.loc == kv.1 / 256 * 256 then ln.setByte (kv.1 % 256) kv.2 else ln) s).updCore core fun c => c.heal (kvs.map Prod.fst)

end Sys2Proof.Machine
end

