-- ==== Sys2Proof/Machine/Translate.lean ====
section
/-! DEFINITION. Translation of global and context space (R9-R17, R22, R23, R27-R32, R34-R38): the walk, the structures that cache
translations (R27), and the fault records that failed walks leave. -/
namespace Sys2Proof.Machine

/-! ## Kinds of faults (R32) -/

namespace Kind
def notPresent : Nat := 0
def writeProt : Nat := 1
def execProt : Nat := 2
def format : Nat := 3
def contextAlias : Nat := 4
def nomem : Nat := 5
def asidInvalid : Nat := 6
def host : Nat := 7
def contextRange : Nat := 8
end Kind

/-- The ACCESS code of a fault record (R34). -/
def Access.code : Access → Nat
  | .load => 0
  | .store => 1
  | .atomic => 2
  | .fetch => 3
  | .engRead => 4
  | .engWrite => 5
  | .spill => 6
  | .refill => 7

/-- An access that needs W = 1 (R16). -/
def Access.writes : Access → Bool
  | .store | .atomic | .engWrite | .spill => true
  | _ => false

def Access.isFetch : Access → Bool
  | .fetch => true
  | _ => false

/-! ## The walk (R12-R17, R32) -/

/-- How a walk ends. -/
inductive Walk where
  /-- A leaf that admits the access: the entry's location and value, and what it maps. -/
  | leaf (key : Nat) (pte : DWord) (log2 : Nat)
  /-- A fault of a kind at an entry; `sys` where the entry is the leaf of a host page. -/
  | fault (kind ptepa : Nat) (sys : Bool)
  deriving DecidableEq, Repr

/-- An entry read at its home L2; a poisoned sector, or a stale line, reads as a format error (R17, R70, R106).  The address of a table
is an interleaved PA: only a leaf has a DL bit (R15, R19; DEDUCED, log entry 50). -/
def State.readPte (s : State) (pa : Nat) : Option (Option (Nat × DWord)) :=
  match s.paKey false pa with
  | none => none
  | some k => if s.secPoison k || s.homeStale k then some none else some (some (k, s.word64 k))

/-- ADDR of an entry: PA[51:8] in bits [59:16] (R15). -/
def pteAddr (e : DWord) : Nat := bits e 59 16 * 256

/-- The size of a page at a level: PT4 down to PT0 are levels 4 to 0 (R14). -/
def pageLog2 : Nat → Nat
  | 0 => 16
  | 1 => 21
  | _ => 29

/-- The alignment of the table below a level (R14). -/
def tableAlign : Nat → Nat
  | 1 => 256
  | 2 => 2048
  | _ => 4096

/-- The slice of a VA that indexes a level (R14). -/
def vaIndex (level va : Nat) : Nat :=
  match level with
  | 4 => va / 2 ^ 47 % 512
  | 3 => va / 2 ^ 38 % 512
  | 2 => va / 2 ^ 29 % 512
  | 1 => va / 2 ^ 21 % 256
  | _ => va / 2 ^ 16 % 32

/-- FORMAT conditions of an entry with V = 1 at a level (R16, R23). -/
def pteBad (ctx : Bool) (level : Nat) (e : DWord) : Bool :=
  let leaf := e.getLsbD 1
  let sys := e.getLsbD 12
  bits e 63 60 != 0 || bits e 15 13 != 0 || e.getLsbD 2
  || (leaf && decide (3 ≤ level)) || (!leaf && level == 0)
  || (!leaf && (bits e 12 3 != 0 || pteAddr e % tableAlign level != 0))
  || (leaf && (pteAddr e % 2 ^ pageLog2 level != 0 || decide (2 ≤ bits e 10 9)
      || (sys && (e.getLsbD 8 || bits e 10 9 != 0 || e.getLsbD 11))
      || (ctx && (e.getLsbD 4 || e.getLsbD 7 || e.getLsbD 11))))

/-- Whether a peer's location is reached through a port that is up (R405, R406). -/
def State.peerUp (s : State) (k : Nat) : Bool :=
  if 2 ^ 44 ≤ k && k < hostBase then
    let p := bits (Sparse.get 0 s.izroute (k / 2 ^ 44)) 3 0
    (Sparse.get {} s.ports p).up
  else true

/-- A PA is reached: it names present storage, or memory of a peer behind a port that is up (R405) which does not refuse the access (R18,
R22, R32; whether a peer refuses is free: DESIGN CHOICE, log entry 15). -/
def State.reached (s : State) (dl : Bool) (pa : Nat) : Option Nat :=
  match s.paKey dl pa with
  | some k => if isHbm k || (s.peerUp k && !Config.peerRefuses s.choice pa) then some k else none
  | none => none

/-- The leaf's own causes, in the order of R32 after FORMAT; HOST is found when the host page is looked up.  A handler fetches from
context space through leaves whose X must be 0 (R23, R414), so that X is tested in global space alone (DEDUCED, log entry 50). -/
def State.leafFault (s : State) (sp : Space) (acc : Access) (level : Nat) (e : DWord) (pa : Nat) : Option Nat :=
  let sys := e.getLsbD 12
  let dl := e.getLsbD 8
  let inHbm := !sys && pteAddr e / 2 ^ 40 == 0
  let size := 2 ^ pageLog2 level
  if sp.ctx && !(inHbm && s.insideContext sp.vm dl (pteAddr e) size) then some Kind.contextRange
  else if !sp.ctx && inHbm && s.touchesProtected dl (pteAddr e) size then some Kind.contextAlias
  else if !sys && (s.reached dl pa).isNone then some Kind.nomem
  else if acc.writes && !e.getLsbD 3 then some Kind.writeProt
  else if acc.isFetch && !sp.ctx && !e.getLsbD 4 then some Kind.execProt
  else none

/-- The part of a VA that selects the entry of a level, counted from the top; level 5 is the entry of the ASID root table. -/
def walkSlice (level va : Nat) : Nat :=
  match level with
  | 5 => 0
  | 4 => va / 2 ^ 47
  | 3 => va / 2 ^ 38
  | 2 => va / 2 ^ 29
  | 1 => va / 2 ^ 21
  | _ => va / 2 ^ 16

/-- The entry that the walk cache of a cluster holds (R27). -/
def State.walkHeld (s : State) (cl : Nat) (sp : Space) (level va : Nat) : Option WalkEnt :=
  s.x.walkc.find? fun w => w.cluster == cl && w.vm == sp.vm && w.ctx == sp.ctx && (sp.ctx || w.asid == sp.asid) && w.level == level
    && w.slice == walkSlice level va

/-- An entry as a walk finds it: the value that the walk cache holds of a non-leaf entry, where a free value says so, or the entry at
its home (R17, R27, R29; DESIGN CHOICE, log entry 6). -/
def State.walkEntry (s : State) (cl : Nat) (sp : Space) (level va epa : Nat) : Option (Option (Nat × DWord)) :=
  match s.walkHeld cl sp level va with
  | some w => if Config.walkCached s.choice level then some (some (epa, w.val)) else s.readPte epa
  | none => s.readPte epa

/-- The walk from a table at a level downward.  Entries 510 and 511 of a PT4 table are ignored, as if V were 0 (R11; DEDUCED, log
entry 50).  The leaf of a host page says so to a fault but for FORMAT, which leaves no page (R34; DEDUCED, log entry 50). -/
def State.walkFrom (s : State) (cl : Nat) (sp : Space) (acc : Access) (va : Nat) : Nat → Nat → Walk
  | level, table =>
    let epa := table + 8 * vaIndex level va
    if level = 4 && 510 ≤ vaIndex level va then .fault Kind.notPresent epa false
    else match s.walkEntry cl sp level va epa with
    | none => .fault Kind.nomem 0 false
    | some none => .fault Kind.format epa false
    | some (some (k, e)) =>
      let sys := e.getLsbD 0 && e.getLsbD 1 && e.getLsbD 12
      if !e.getLsbD 0 then .fault Kind.notPresent epa false
      else if pteBad sp.ctx level e then .fault Kind.format epa false
      else if e.getLsbD 1 then
        match s.leafFault sp acc level e (pteAddr e + va % 2 ^ pageLog2 level) with
        | some kind => .fault kind (if kind == Kind.nomem then 0 else epa) sys
        | none => .leaf k e (pageLog2 level)
      else match level with
        | 0 => .fault Kind.format epa false
        | l + 1 => s.walkFrom cl sp acc va l (pteAddr e)

/-- An entry of an ASID root table that names no PT4 table (R13). -/
def rootBad (e : DWord) : Bool := !e.getLsbD 0 || bits e 63 60 != 0 || bits e 15 1 != 0 || pteAddr e % 4096 != 0

/-- The whole walk in a cluster: the root of the VM or of its context space, then PT4 to PT0 (R12-R14). -/
def State.walk (s : State) (cl : Nat) (sp : Space) (acc : Access) (va : Nat) : Walk :=
  if sp.ctx then
    let r : DWord := Sparse.get 0 s.x.ctxroot sp.vm
    if !r.getLsbD 0 || pteAddr r % 4096 != 0 then .fault Kind.asidInvalid 0 false
    else s.walkFrom cl sp acc va 4 (pteAddr r)
  else
    let r : DWord := Sparse.get 0 s.x.vmroot sp.vm
    if !r.getLsbD 0 || pteAddr r % 2 ^ 19 != 0 then .fault Kind.asidInvalid 0 false
    else
      let epa := pteAddr r + 8 * sp.asid.toNat
      match s.walkEntry cl sp 5 va epa with
      | none => .fault Kind.nomem 0 false
      | some none => .fault Kind.format epa false
      | some (some (_, e)) =>
        if rootBad e then .fault Kind.asidInvalid epa false else s.walkFrom cl sp acc va 4 (pteAddr e)

/-! ## What a walk reads and leaves in the walk cache (R17, R27, R40, R54) -/

/-- The entries of a walk from a level downward: level, PA, value, and whether it lies in the walk cache. -/
def State.walkPath (s : State) (cl : Nat) (sp : Space) (va : Nat) : Nat → Nat → List (Nat × Nat × DWord)
  | level, table =>
    let epa := table + 8 * vaIndex level va
    if level = 4 && 510 ≤ vaIndex level va then []
    else match s.walkEntry cl sp level va epa with
    | some (some (_, e)) =>
      if !e.getLsbD 0 || pteBad sp.ctx level e || e.getLsbD 1 then [(level, epa, e)]
      else match level with
        | 0 => [(level, epa, e)]
        | l + 1 => (level, epa, e) :: s.walkPath cl sp va l (pteAddr e)
    | _ => [(level, epa, 0)]

/-- The entries of the whole walk. -/
def State.walked (s : State) (cl : Nat) (sp : Space) (va : Nat) : List (Nat × Nat × DWord) :=
  if sp.ctx then s.walkPath cl sp va 4 (pteAddr (Sparse.get 0 s.x.ctxroot sp.vm))
  else
    let epa := pteAddr (Sparse.get 0 s.x.vmroot sp.vm) + 8 * sp.asid.toNat
    match s.walkEntry cl sp 5 va epa with
    | some (some (_, e)) => if rootBad e then [(5, epa, e)] else (5, epa, e) :: s.walkPath cl sp va 4 (pteAddr e)
    | _ => [(5, epa, 0)]

/-- The leaf of a VA names memory of a peer behind a port that is down, so that the access receives an error response (R405). -/
def State.errorResponse (s : State) (cl : Nat) (sp : Space) (va : Nat) : Bool :=
  match (s.walked cl sp va).getLast? with
  | some (level, _, e) =>
    e.getLsbD 0 && e.getLsbD 1 && !e.getLsbD 12
      && match s.paKey (e.getLsbD 8) (pteAddr e + va % 2 ^ pageLog2 level) with
        | some k => !s.peerUp k
        | none => false
  | none => false

/-- The most recent entries of a list for which `p` holds, at most `n`; of `n` and more a free value names one that goes. -/
def capped {α : Type} (choice n : Nat) (p : α → Bool) (l : List α) : List α :=
  let mine := (List.range l.length).filter fun i => match l[i]? with
    | some x => p x
    | none => false
  if mine.length < n then l else l.eraseIdx (mine.getD (Config.tlbVictim choice mine.length % mine.length) 0)

/-- Keep a non-leaf entry of a walk: the cache of a cluster has 1,024 (R27). -/
def State.keepWalk (s : State) (w : WalkEnt) : State :=
  let rest := s.x.walkc.filter fun u => !(u.cluster == w.cluster && u.vm == w.vm && u.asid == w.asid && u.ctx == w.ctx
    && u.level == w.level && u.slice == w.slice)
  { s with x := { s.x with walkc := w :: capped s.choice 1024 (fun u => u.cluster == w.cluster) rest } }

/-- A walk's reads at the homes of its entries, in the class of the block (R40, R54), and the non-leaf entries it leaves in the walk
cache (R27). -/
def State.walkReads (s : State) (cl cls : Nat) (sp : Space) (va : Nat) : State :=
  let path := s.walked cl sp va
  let reads := path.filter fun x => !(match s.walkHeld cl sp x.1 va with
    | some w => Config.walkCached s.choice x.1 && w.val == x.2.2
    | none => false)
  let s := s.l2TouchAll (reads.filterMap fun x => s.paKey false x.2.1) cls false
  (path.dropLast).foldl (fun s x => s.keepWalk ⟨cl, sp.vm, if sp.ctx then 0 else sp.asid, sp.ctx, x.1, walkSlice x.1 va, x.2.2⟩) s

/-! ## Cached translations (R27, R29)

Every structure of R27 has a number: the L2 TLB of a cluster is the cluster's, with 64 and 65 those of the hub and 66 and a die those
of the rasterisers, which R27 does not list (DESIGN CHOICE, log entry 6); the L1 TLB, the instruction TLB and the engine micro-TLBs of a
core and the context TLB of a cluster have numbers above them. -/

def tlbLane (core : Nat) : Nat := 128 + core
def tlbFetch (core : Nat) : Nat := 288 + core
def tlbContext (cl : Nat) : Nat := 448 + cl
/-- The micro-TLB of an engine: each copy engine, transform pipe and rasterising or ray unit by its core, those that a cluster shares by
the cluster's first core (R27, R135). -/
def tlbEngine (core engine : Nat) : Nat := 512 + 64 * (if engine ≤ 15 then core else core / 4 * 4) + engine

/-- The cluster, or the number of the hub or rasterisers, whose L2 TLB stands behind a structure. -/
def tlbBehind (u : Nat) : Nat :=
  if u < 128 then u else if u < 288 then (u - 128) / 4 else if u < 448 then (u - 288) / 4 else if u < 512 then u - 448
  else (u - 512) / 64 / 4

/-- The structure that an access of a unit looks in first: the context TLB of its cluster for context space (R27). -/
def tlbFor (u : Nat) (sp : Space) : Nat :=
  if sp.ctx && (decide (u < 64) || decide (128 ≤ u)) then tlbContext (tlbBehind u) else u

/-- The structure of R27 in which a wave's access looks; the reads of object tables by the Landing, which R27 does not list, in the L2
TLB of the wave's cluster (DESIGN CHOICE, log entry 6). -/
def stallUnit (core : Nat) (a : Access) : Nat :=
  match a with
  | .fetch => tlbFetch core
  | .engRead | .engWrite => clusterOf core
  | _ => tlbLane core

/-- Entries of a structure (R27). -/
def tlbSize (u : Nat) : Nat :=
  if u < 128 then 16384 else if u < 288 then 256 else if u < 448 then 64 else if u < 512 then 512 else 32

/-- An entry serves an access of a unit: it is in a structure that the unit looks in, covers the VA in its space and carries the
permission, D included for a write. -/
def Tlb.serves (t : Tlb) (u : Nat) (sp : Space) (acc : Access) (va : Nat) : Bool :=
  (t.unit == tlbFor u sp || (!sp.ctx && t.unit == tlbBehind u)) && t.vm == sp.vm && t.ctx == sp.ctx
    && (t.g || t.ctx || t.asid == sp.asid) && va / 2 ^ t.log2 == t.va / 2 ^ t.log2
    && (!acc.writes || (t.w && t.d)) && (!acc.isFetch || t.x || t.ctx)

/-- A translated byte: its location, whether the access bypasses the L1 (R49, R50), whether its page may hold compressed lines, and
PA[13:8], which names its set in an instruction cache (R51). -/
structure Loc where
  key : Nat
  bypass : Bool
  cmp : Bool
  iset : Nat := 0
  deriving DecidableEq, Repr

/-- Where an entry maps a VA; nowhere where its storage is not present or a peer refuses, so that the access is walked again and
faults (R18, R32). -/
def State.tlbLoc (s : State) (t : Tlb) (va : Nat) : Option Loc :=
  let pa := t.pa + va % 2 ^ t.log2
  if t.sys then some ⟨hostBase + pa, true, false, pa / 256 % 64⟩
  else (s.reached t.dl pa).map fun k => ⟨k, t.bypass || !isHbm k, t.cmp, pa / 256 % 64⟩

/-- The cached translation of an access; where there are several the device may use any of them (R29; DESIGN CHOICE, log entry 6). -/
def State.tlbFind (s : State) (u : Nat) (sp : Space) (acc : Access) (va : Nat) : Option Tlb :=
  match s.x.tlb.filter fun t => t.serves u sp acc va && (s.tlbLoc t va).isSome with
  | [] => none
  | [t] => some t
  | l => l[Config.pickTlb s.choice l.length % l.length]?

/-- The VAs of the windows of the handler of a cluster: the trapped wave's, and the inspection window (R414; DESIGN CHOICE, log entry 31). -/
def waveWinVa (cl : Nat) : Nat := Config.waveWindow cl % (255 * 2 ^ 32 - 2 ^ 21) * 2 ^ 16
def inspectVa (cl : Nat) : Nat := waveWinVa cl + (1 + Config.inspectWindow cl % 2 ^ 20) * 2 ^ 16

/-- The location of a VA in the windows of a handler. -/
def handlerLoc (cl va : Nat) : Option Loc :=
  if waveWinVa cl ≤ va && va < waveWinVa cl + 2 ^ 16 then some { key := waveWinKey cl (va - waveWinVa cl), bypass := true, cmp := false }
  else if inspectVa cl ≤ va && va < inspectVa cl + 2 ^ 16 then some { key := inspectKey cl (va - inspectVa cl), bypass := true, cmp := false }
  else none

/-- The location of a VA by the cached translations; a handler reads and writes the VM's storage past the L1. -/
def State.lookup (s : State) (u : Nat) (sp : Space) (acc : Access) (va : Nat) : Option Loc :=
  let cached := (s.tlbFind u sp acc va).bind fun t => s.tlbLoc t va
  if sp.svc then
    match handlerLoc (tlbBehind u) va with
    | some l => some l
    | none => cached.map fun l => { l with bypass := true }
  else cached

/-- The first byte of some VAs that no cached translation serves. -/
def State.firstMiss (s : State) (u : Nat) (sp : Space) (acc : Access) (vas : List Nat) : Option Nat :=
  vas.find? fun va => (s.lookup u sp acc va).isNone

/-- The first byte in each 64 KiB unit of some VAs that no cached translation serves: the pages that an access waits for (R28). -/
def State.misses (s : State) (u : Nat) (sp : Space) (acc : Access) (vas : List Nat) : List Nat :=
  (vas.filter fun va => (s.lookup u sp acc va).isNone).foldl (fun ms va =>
    if ms.any fun m => m / 65536 == va / 65536 then ms else ms ++ [va]) []

/-- Put a translation into a structure.  A full one gives up an entry that a free value names; an L2 TLB of 8 ways may give one up
before it is full, since the manual does not say how it is indexed (R27; DESIGN CHOICE, log entry 6).  An entry of the same page that
differs stays beside it (R29). -/
def State.tlbPut (s : State) (t : Tlb) : State :=
  let rest := s.x.tlb.filter fun u => u != t
  let n := rest.countP fun u => u.unit == t.unit
  let size := if t.unit < 128 && 8 ≤ n && Config.tlbVictim s.choice n < n then n else tlbSize t.unit
  { s with x := { s.x with tlb := t :: capped s.choice size (fun u => u.unit == t.unit) rest } }

/-- Cache a translation: in the structure of the unit that asked, and in the L2 TLB behind it but for context space (R27). -/
def State.tlbFill (s : State) (t : Tlb) : State :=
  if t.ctx || t.unit < 128 then s.tlbPut t
  else (s.tlbPut { t with unit := tlbBehind t.unit }).tlbPut t

/-- How a translation at once ends. -/
inductive Xlated where
  /-- The translation is cached in the state given. -/
  | ok (s : State)
  /-- A fault of a kind at an entry; `sys` for a host page. -/
  | fault (kind ptepa : Nat) (sys : Bool)
  /-- A host page that waits for the answer to its page request (R38). -/
  | pri (s : State)
  deriving DecidableEq, Repr

/-- Set A, and D before a first write, in a leaf at its home (R17). -/
def State.markLeaf (s : State) (cls key : Nat) (e : DWord) (write : Bool) : State :=
  let e' := e ||| (if write then 0x60 else 0x20)
  if e' = e then s else s.homeWrite cls (writesFrom key (leBytes 8 e'.toNat))

/-- Walk and cache (R17, R28); a leaf with SYS = 1 asks ATS and PRI for its host page (R38). -/
def State.fillWalk (s : State) (u cls : Nat) (sp : Space) (acc : Access) (va : Nat) : Xlated :=
  let cl := tlbBehind u
  match s.walk cl sp acc va with
  | .fault kind ptepa sys => .fault kind ptepa sys
  | .leaf key e log2 =>
    let base : Tlb := ⟨tlbFor u sp, sp.vm, sp.asid, e.getLsbD 7, sp.ctx, va / 2 ^ log2 * 2 ^ log2, log2, pteAddr e, false,
      e.getLsbD 11, bits e 10 9 == 1, e.getLsbD 8, e.getLsbD 6 || acc.writes, e.getLsbD 4, e.getLsbD 3⟩
    if !e.getLsbD 12 then .ok (((s.walkReads cl cls sp va).markLeaf cls key e acc.writes).tlbFill base)
    else
      let page := (pteAddr e + va % 2 ^ log2) / 4096
      match s.x.hostPages.find? (fun p => p.1 == page) with
      | some p => .ok (((s.walkReads cl cls sp va).markLeaf cls key e acc.writes).tlbFill
          { base with va := va / 4096 * 4096, log2 := 12, pa := p.2 * 4096, sys := true })
      | none =>
        match s.x.pri.find? (fun r => r.page == page) with
        | some r =>
          if r.failed then .fault Kind.host 0 true else .pri s
        | none => .pri { s with x := { s.x with pri := s.x.pri ++ [⟨page, false⟩] } }

/-! ## Fault records (R34, R35) -/

/-- The record a core keeps under a key: space, 64 KiB unit, write or not. -/
def FaultRec.same (r : FaultRec) (core : Nat) (sp : Space) (va : Nat) (acc : Access) : Bool :=
  r.core == core && r.space.vm == sp.vm && r.space.ctx == sp.ctx && (sp.ctx || r.space.asid == sp.asid)
    && r.va / 65536 == va / 65536 && r.access.writes == acc.writes

/-- Join the outstanding record of a fault's key, or make one that is held until it is posted; its serial number. -/
def State.raiseFault (s : State) (core : Nat) (sp : Space) (va : Nat) (acc : Access) (kind ptepa : Nat) (sys : Bool)
    (part wslot engine : Nat) : State × Nat :=
  match s.x.faults.find? (fun r => r.same core sp va acc) with
  | some r => (s, r.serial)
  | none =>
    let n := s.x.nextSerial
    let r : FaultRec := ⟨n, none, core, sp, va, kind, acc, sys, part, wslot, engine, ptepa⟩
    ({ s with x := { s.x with faults := s.x.faults ++ [r], nextSerial := n + 1 } }, n)

/-- What a unit that translates at once meets (engines, the Ferry, the hub): its location, a fault, or a wait. -/
inductive Got where
  | ok (s : State) (l : Loc)
  | fault (kind ptepa : Nat) (sys : Bool)
  | pri (s : State)
  deriving DecidableEq, Repr

/-- Translate at once: the cached translation, or a walk that caches one. -/
def State.translate (s : State) (u cls : Nat) (sp : Space) (acc : Access) (va : Nat) : Got :=
  match s.lookup u sp acc va with
  | some l => .ok s l
  | none =>
    match s.fillWalk u cls sp acc va with
    | .fault kind ptepa sys => .fault kind ptepa sys
    | .pri s' => .pri s'
    | .ok s' =>
      match s'.lookup u sp acc va with
      | some l => .ok s' l
      | none => .fault Kind.notPresent 0 false

/-- Many bytes translated at once, in order: their locations, or the first that fails or waits. -/
inductive GotAll where
  | ok (s : State) (ls : List Loc)
  | fault (va kind ptepa : Nat) (sys : Bool)
  | pri (s : State)
  deriving DecidableEq, Repr

/-- A VA of the device window (R11). -/
def inDeviceWindow (va : Nat) : Bool := va / 2 ^ 48 % 2 ^ 8 == 0xFF

/-- The VA of the Landing window's first byte (R9). -/
def landingVa : Nat := 0xFF * 2 ^ 48

/-- Bytes of the Landing window while the heap is in force (R24). -/
def State.windowSize (s : State) : Nat := if s.heapInForce then s.lreg.size * 2 ^ 30 else 0

/-- An address that a byte of an access may have: below 2^56, and outside the device window but for the Landing window as
R24 bounds it (R10). -/
def State.vaOk (s : State) (va : Nat) : Bool := decide (va < landingVa + s.windowSize)

/-- A whole range lies at such addresses. -/
def State.rangeOk (s : State) (base len : Nat) : Bool := len == 0 || s.vaOk (base + len - 1)

/-- One byte translated at once: the Landing window linearly, else the page tables. -/
def State.place (s : State) (unit cls : Nat) (sp : Space) (acc : Access) (va : Nat) : Got :=
  if !sp.ctx && decide (landingVa ≤ va) then .ok s { key := s.heapKey (va - landingVa), bypass := false, cmp := false }
  else s.translate unit cls sp acc va

/-- Bytes translated at once. -/
def State.placeAll (s : State) (unit cls : Nat) (sp : Space) (acc : Access) : List Nat → GotAll
  | [] => .ok s []
  | va :: t =>
    match s.place unit cls sp acc va with
    | .fault kind ptepa sys => .fault va kind ptepa sys
    | .pri s' => .pri s'
    | .ok s' l =>
      match s'.placeAll unit cls sp acc t with
      | .ok s'' ls => .ok s'' (l :: ls)
      | .fault va kind ptepa sys => .fault va kind ptepa sys
      | .pri s'' => .pri s''

end Sys2Proof.Machine
end

