-- ==== Sys2Proof/Machine/Queues.lean ====
section
/-! DEFINITION. The stage queues of the hub (R149, R150): reserving and taking records. -/
namespace Sys2Proof.Machine

/-- Queue `q` of a function. -/
def State.queue (s : State) (fn q : Nat) : QueueSt := Sparse.get {} s.queues (256 * fn + q)
def State.setQueue (s : State) (fn q : Nat) (x : QueueSt) : State :=
  { s with queues := Sparse.set {} s.queues (256 * fn + q) x }

/-- V as it reads: LOG2N outside 4-24 makes it 0 (R149). -/
def QueueSt.valid (x : QueueSt) : Bool := x.v && decide (4 ≤ x.log2n) && decide (x.log2n ≤ 24)

/-- Bytes of a record. -/
def recBytes (rs : Nat) : Nat := 8 * 2 ^ rs

/-- Occupancy: COMMIT - HEAD modulo 2^32 (R149). -/
def QueueSt.occupancy (x : QueueSt) : Nat := (x.commit - x.head).toNat

/-- The VA of the slot of record `i`. -/
def QueueSt.slotVa (x : QueueSt) (i : Word) : Nat := x.base + i.toNat % 2 ^ x.log2n * recBytes x.recsz

/-- The translation unit of the H-die that holds a queue (R149). -/
def hubUnit (q : Nat) : Nat := 64 + q % 2

/-- How the hub serves one lane. -/
inductive Served where
  | done (s : State)
  | full
  | invalid
  | wait (s : State)
  deriving DecidableEq, Repr

/-- The bytes of a ring slot. -/
def QueueSt.slotVas (x : QueueSt) (i : Word) : List Nat := span (x.slotVa i) (recBytes x.recsz)

/-- A ring address outside the VM's translated space. -/
def badRing (vas : List Nat) : Bool := vas.any fun va => decide (landingVa ≤ va)

/-- Reserve a slot for a record and give its bytes to the hub (R150). -/
def State.enqueue (s : State) (fn q rs : Nat) (bytes : List Byte) : Served :=
  let x := s.queue fn q
  if 256 ≤ q || !x.valid || x.recsz != rs then .invalid
  else if 2 ^ x.log2n ≤ (x.tail - x.head).toNat then .full
  else if badRing (x.slotVas x.tail) then .invalid
  else match s.placeAll (hubUnit q) x.cls ⟨fn, x.asid, false, false⟩ .engWrite (x.slotVas x.tail) with
    | .fault .. => .invalid
    | .pri s' => .wait s'
    | .ok s' ls =>
      .done (s'.setQueue fn q { x with tail := x.tail + 1, pend := x.pend ++ [(ls.map Loc.key).zip bytes] })

/-- Take the record at HEAD: its locations in the state given (R150). -/
inductive Taken where
  | done (s : State) (ks : List Nat)
  | empty
  | invalid
  | wait (s : State)
  deriving DecidableEq, Repr

def State.dequeue (s : State) (fn q rs : Nat) : Taken :=
  let x := s.queue fn q
  if 256 ≤ q || !x.valid || x.recsz != rs then .invalid
  else if x.occupancy = 0 then .empty
  else if badRing (x.slotVas x.head) then .invalid
  else match s.placeAll (hubUnit q) x.cls ⟨fn, x.asid, false, false⟩ .engRead (x.slotVas x.head) with
    | .fault .. => .invalid
    | .pri s' => .wait s'
    | .ok s' ls => .done (s'.setQueue fn q { x with head := x.head + 1 }) (ls.map Loc.key)

/-- A record of a queue, by its number, is reserved and not yet written (R150; DEDUCED, log entry 44). -/
def State.unwritten (s : State) (r : Nat × Word) : Bool :=
  let x : QueueSt := Sparse.get {} s.queues r.1
  decide ((r.2 - x.commit).toNat < x.pend.length)

/-- QUEUE_COMMIT (R150): the oldest reserved record of a queue is written whole at its home, and COMMIT advances. -/
def execQueueCommit (fn : BitVec 5) (q : BitVec 8) (s : State) : Out :=
  let x := s.queue fn.toNat q.toNat
  match x.pend with
  | [] => .fault .eventCannotOccur
  | r :: rest => .next ((s.homeWrite x.cls r).setQueue fn.toNat q.toNat { x with commit := x.commit + 1, pend := rest })

/-- QUEUE_POINTER_WRITE (R149): word 2 sets TAIL and COMMIT; records reserved before are not written any more. -/
def execQueuePointerWrite (fn : BitVec 5) (q : BitVec 8) (val : DWord) (s : State) : Out :=
  let x := s.queue fn.toNat q.toNat
  let t : Word := .ofNat 32 (bits val 63 32)
  .next (s.setQueue fn.toNat q.toNat { x with tail := t, commit := t, pend := [] })

end Sys2Proof.Machine
end

