-- ==== Sys2Proof/Machine/Landing.lean ====
section
/-! DEFINITION. The Landing (R73-R98): keys and homes, the tag store and its state machine (R86), the payload heap with its
line map and quarantine (R90, R91), the checks on payload accesses (R92), shading records (R93) and waiters (R97). -/
namespace Sys2Proof.Machine

/-! ## Keys and homes (R73, R74) -/

def keyObj (k : Nat) : Nat := k / 2 ^ 32 % 2 ^ 24
def keyVar (k : Nat) : Nat := k % 16

/-- The home die of an object. -/
def dieOfObj (obj : Nat) : Nat := (List.range 8).foldl (fun a i => a ^^^ (obj / 8 ^ i % 8)) 0

/-- The set of a key. -/
def setOfKey (k : Nat) : Nat :=
  (k % 2 ^ 15) ^^^ (k / 2 ^ 15 % 2 ^ 15) ^^^ (k / 2 ^ 30 % 2 ^ 15) ^^^ (k / 2 ^ 45 % 2 ^ 11)

/-- The number of a tag entry by die, set and way. -/
def tagIx (die set way : Nat) : Nat := (die * 2 ^ 15 + set) * 16 + way

/-- The first entry of the set of a key. -/
def keySet (k : Nat) : Nat := tagIx (dieOfObj (keyObj k)) (setOfKey k) 0

/-- An entry that nothing has written: KEY 0, so that on die 0 the sweeps of object 0 set its GEN (R77, R78). -/
def LandSt.unwritten (l : LandSt) (i : Nat) : TagEntry := if i < 2 ^ 19 then { gen := l.gen0 } else {}

def State.tagAt (s : State) (i : Nat) : TagEntry := Sparse.get (s.land.unwritten i) s.land.tags i
def State.setTag (s : State) (i : Nat) (e : TagEntry) : State :=
  { s with land := { s.land with tags := Sparse.set (s.land.unwritten i) s.land.tags i e } }

/-- The states of R78. -/
def stInv : Nat := 0
def stFlight : Nat := 1
def stValid : Nat := 2
def stProvFlight : Nat := 3
def stProvDone : Nat := 4

/-- The handle of an entry (R83). -/
def handleOf (i fser : Nat) : Word := .ofNat 32 (i * 2 ^ 10 + fser * 4)
/-- The entry and fill serial a handle names. -/
def handleIx (h : Word) : Nat := h.toNat / 2 ^ 10
def handleSer (h : Word) : Nat := h.toNat / 4 % 256

/-- The next fill serial of a way (R78). -/
def State.nextSerial (s : State) (i : Nat) : Nat :=
  let n := Sparse.get 0 s.land.serial i
  if n = 255 then 1 else n + 1

/-! ## The heap (R90, R91) -/

/-- Write a payload line's word at its home L2 (R90), in class SH, that of the Landing's fills (R39; DEDUCED, log entry 53). -/
def State.setLm (s : State) (line : Nat) (w : Word) : State :=
  s.homeStore 1 (writesFrom (s.lmKey line) (leBytes 4 w.toNat))

/-- A word of the line map. -/
def lmOf (lst : Nat) (we rd : Bool) (lown lacl : Nat) : Word :=
  .ofNat 32 (lst * 2 ^ 30 + we.toNat * 2 ^ 29 + rd.toNat * 2 ^ 28 + lown * 2 ^ 23 + lacl)

/-- The size of the block taken for some lines (R91). -/
def blockLines (n : Nat) : Nat := if n ≤ 1 then 1 else if n ≤ 2 then 2 else if n ≤ 4 then 4 else 8

/-- The lines of a block. -/
def blockAt (base n : Nat) : List Nat := span base (blockLines n)

/-- The lines that an entry holds, as blocks (R79). -/
def TagEntry.held (e : TagEntry) : List (Nat × Nat) :=
  if e.state == stFlight then (e.fpay, e.sz + 1) :: (if e.retain then [(e.pay, e.osz + 1)] else [])
  else if e.state == stProvFlight then [(e.fpay, e.sz + 1)]
  else if e.state == stValid || e.state == stProvDone then [(e.pay, e.sz + 1)]
  else []

/-- Send a block to quarantine: LST = 1, WE = 0; RD stays for lines that leave a VALID entry (R90, R91). -/
def State.quarantine (s : State) (b : Nat × Nat) : State :=
  let s := (blockAt b.1 b.2).foldl (fun s l => s.setLm l ((s.lmWord l &&& 0x1FFFFFFF) ||| 0x40000000)) s
  { s with land := { s.land with quar := s.land.quar ++ [⟨b.1, blockLines b.2, s.lreg.frame⟩] } }

def State.quarantineAll (s : State) (bs : List (Nat × Nat)) : State := bs.foldl State.quarantine s

/-- Lines of the payload that are not free, read from the line map. -/
def State.busyLines (s : State) : List Nat :=
  let base := s.lreg.base + 63 * s.lreg.size * 2 ^ 24
  s.mem.filterMap fun c =>
    if isHbm c.1 && decide (0x40 ≤ c.2.toNat) then
      let pa := paOfKey c.1
      let off := pa - base
      if base ≤ pa && off % 4 == 3 && off / 4 < s.payLines then some (off / 4) else none
    else none

/-- A multiple of `n` at or above `a`. -/
def alignUp (a n : Nat) : Nat := (a + n - 1) / n * n

/-- The lowest free naturally aligned block of `n` lines in a die's slice (R91). -/
def State.freeBlockOf (s : State) (die n : Nat) : Option Nat :=
  let lo := die * s.sliceLines
  let hi := lo + s.sliceLines
  let busy := s.busyLines.filter fun l => decide (lo ≤ l) && decide (l < hi)
  let ok := fun c => decide (c + n ≤ hi) && !busy.any fun l => decide (c ≤ l) && decide (l < c + n)
  let cands := (alignUp lo n :: busy.map fun l => alignUp (l + 1) n).filter ok
  cands.foldl (fun (a : Option Nat) c => match a with
    | none => some c
    | some b => some (min b c)) none

/-- Lines leave quarantine once FRAME has advanced QFRAMES times since they were freed (R91). -/
def State.drainQuarantine (s : State) : State :=
  let q := max 1 s.lreg.qframes
  let out := s.land.quar.filter fun e => decide (q ≤ (s.lreg.frame - e.frame).toNat)
  let s := out.foldl (fun s e =>
    (span e.base e.lines).foldl (fun s l => s.setLm l (s.lmWord l &&& 0x0FFFFFFF)) s) s
  { s with land := { s.land with quar := s.land.quar.filter fun e => !out.contains e } }

/-! ## Permissions (R84, R89, R92) -/

/-- The share set of a VM: its tags, 0 holding none. -/
def State.shares (s : State) (vm acl : Nat) : Bool :=
  acl != 0 && (List.range 4).any fun i =>
    let r : DWord := Sparse.get 0 s.lreg.share (4 * vm + i)
    (List.range 4).any fun j => bits r (16 * j + 15) (16 * j) == acl

/-- A VM sees an entry (R84). -/
def State.sees (s : State) (vm : Nat) (e : TagEntry) : Bool :=
  if e.state == stProvFlight || e.state == stProvDone then e.owner == vm
  else e.owner == vm || s.shares vm e.acl

/-- A program access to a byte of the Landing window is permitted (R24, R92). -/
def State.landingOk (s : State) (vm : Nat) (write : Bool) (off : Nat) : Bool :=
  let line := off / 256
  if s.lreg.onpend || s.lreg.offpend || s.payLines ≤ line then false
  else
    let w := s.lmWord line
    let lst := w.toNat / 2 ^ 30
    let lown := w.toNat / 2 ^ 23 % 32
    let lacl := w.toNat % 2 ^ 16
    if write then lst == 2 && w.getLsbD 29 && lown == vm
    else lst != 0 && (lown == vm || (w.getLsbD 28 && s.shares vm lacl))

/-- A write that an open store window admits outside the scratchpad (R95). -/
def windowAdmits (win : Option (List (Nat × Nat))) (va : Nat) : Bool :=
  match win with
  | none => true
  | some bs => bs.any fun b => decide (b.1 ≤ va) && decide (va < b.1 + b.2)

/-! ## Ages (R81) -/

def ageOf (frame f : Word) : Nat := min 255 (frame - f).toNat

/-- An entry is expired (R81). -/
def State.expired (s : State) (e : TagEntry) : Bool :=
  let frame := s.lreg.frame
  ((e.state == stFlight || e.state == stProvFlight) && s.lreg.flightmax != 0
      && decide (s.lreg.flightmax < (frame - e.fillframe).toNat))
  || ((e.state == stProvFlight || e.state == stProvDone) && decide (s.lreg.provwin < (frame - e.lasthit).toNat))

/-! ## Results (R82) -/

namespace Code
def hit : Nat := 0
def miss : Nat := 1
def flight : Nat := 2
def busy : Nat := 3
def hitStale : Nat := 4
def timeout : Nat := 5
def lost : Nat := 6
def none : Nat := 7
end Code

/-- What a lane of a lookup, provisional request or wait receives. -/
structure LandRes where
  code : Nat
  cause : Nat := 0
  noh : Bool := false
  sz : Nat := 0
  age : Nat := 0
  handle : Word := 0
  pay : Nat := 0
  deriving DecidableEq, Repr

/-- The result word. -/
def LandRes.word (r : LandRes) : Word :=
  .ofNat 32 (r.code * 2 ^ 28 + r.cause * 2 ^ 26 + r.noh.toNat * 2 ^ 25 + r.sz * 2 ^ 22 + r.age * 2 ^ 14)

/-- The payload VA of a HIT or HIT_STALE; 0 otherwise. -/
def LandRes.va (r : LandRes) : Nat :=
  if r.code == Code.hit || r.code == Code.hitStale then landingVa + 256 * r.pay else 0

/-- The four words of a result group (R325). -/
def LandRes.group (r : LandRes) : List Word :=
  [r.word, r.handle, .ofNat 32 r.va, .ofNat 32 (r.va / 2 ^ 32)]

/-! ## Waiters (R80, R97) -/

/-- The watcher record of a wave. -/
def State.waveWatcher (s : State) (wi : Nat) : Word :=
  let w := s.wave wi
  let core := (s.block w.block).core
  .ofNat 32 (2 ^ 31 + dieOf core * 2 ^ 27 + clusterOf core % 5 * 2 ^ 24 + core % 4 * 2 ^ 22 + w.part.val * 2 ^ 17
    + w.wslot.val * 2 ^ 15)

/-- The watcher record of a ray of a cluster's ray unit. -/
def rayWatcher (cluster slot : Nat) : Word :=
  .ofNat 32 (2 ^ 31 + 2 ^ 30 + cluster / 5 * 2 ^ 27 + cluster % 5 * 2 ^ 24 + slot * 2 ^ 12)

def watching (ws : List Word) (r : Word) : Bool := ws.contains r
def watchFull (ws : List Word) : Bool := ws.all fun w => w.getLsbD 31

/-- Put a watcher in the first free slot. -/
def addWatch : List Word → Word → List Word
  | [], _ => []
  | w :: t, r => if w.getLsbD 31 then w :: addWatch t r else r :: t

/-- Remove a watcher. -/
def dropWatch (ws : List Word) (r : Word) : List Word := ws.map fun w => if w == r then 0 else w

/-- The writes of a result group, but to the places a reuse hint has overwritten (R177). -/
def groupWrites (lane : Nat) (dst : List Nat) (ws : List Word) : List PendWrite :=
  ((dst.zip ws).filter fun kw => kw.1 != noKey).map fun kw => ⟨lane, kw.1, kw.2, false⟩

/-- Parked lanes of a wave that wait on an entry get a result (row 15, 22). -/
def Wave.wakeParked (w : Wave) (i : Nat) (r : LandRes) : Wave :=
  { w with counted := w.counted.map fun nc =>
      let hit := nc.2.parked.filter fun p => p.entry == i
      (nc.1, { nc.2 with
        parked := nc.2.parked.filter fun p => p.entry != i
        writes := nc.2.writes ++ hit.flatMap fun p => groupWrites p.lane p.dst { r with handle := p.handle }.group }) }

/-- The wake of one watcher: the lanes of its wave, or its ray.  A HIT is an acquire at device scope (R88). -/
def State.wakeOne (s : State) (i : Nat) (r : LandRes) (who : Word) : State :=
  if !who.getLsbD 31 then s
  else if who.getLsbD 30 then
    { s with ops := s.ops.map fun o =>
        if o.life == .running && !o.saved && (o.engine == 19 || o.engine == 20) then
          { o with rays := o.rays.map fun y =>
              if y.lifeR == .parked && y.entry == i && rayWatcher (clusterOf o.core) y.slot == who then
                { y with lifeR := .running, got := some (r.code, r.pay, r.sz) }
              else y }
        else o }
  else
    match (List.range s.waves.length).find? fun wi =>
        (s.wave wi).life != .ended && (s.block (s.wave wi).block).life == .resident && s.waveWatcher wi == who with
    | some wi =>
      let s := s.updWave wi fun w => w.wakeParked i r
      if r.code == Code.hit then s.l1Acquire (s.block (s.wave wi).block).core else s
    | none => s

/-- Send a result to every watcher of an entry and clear WATCH. -/
def State.wake (s : State) (i : Nat) (r : LandRes) : State :=
  let ws := (s.tagAt i).watch
  let s := s.setTag i { s.tagAt i with watch := [0, 0, 0, 0] }
  ws.foldl (fun s w => s.wakeOne i r w) s

/-- An entry becomes INV: its lines go to quarantine and its watchers are sent LOST (rows 22, 24, R84). -/
def State.dropEntry (s : State) (i : Nat) : State :=
  let e := s.tagAt i
  let s := s.quarantineAll e.held
  let s := s.setTag i { e with state := stInv, retain := false, osz := 0, oldfill := 0 }
  s.wake i { code := Code.lost }

/-- Row 22 on the set whose first entry is `base`. -/
def State.expireSet (s : State) (base : Nat) : State :=
  (span base 16).foldl (fun s i => if s.expired (s.tagAt i) then s.dropEntry i else s) s

/-! ## Choosing (R84, R87) -/

/-- The entry that R84 chooses for a key, with whether step 1 or 2 chose it. -/
def State.chooseEntry (s : State) (vm key : Nat) : Option (Nat × Bool) :=
  let ways := (span (keySet key) 16).filter fun i => (s.tagAt i).key == key
  let open' := fun (e : TagEntry) => (e.state == stFlight || e.state == stValid) && s.sees vm e
  match ways.find? fun i => open' (s.tagAt i) && (s.tagAt i).acl == 0 with
  | some i => some (i, true)
  | none =>
    match ways.find? fun i => open' (s.tagAt i) && (s.tagAt i).acl != 0 with
    | some i => some (i, true)
    | none =>
      (ways.find? fun i => let e := s.tagAt i
        e.owner == vm && (e.state == stProvFlight || e.state == stProvDone)).map fun i => (i, false)

/-- The provisional entry of a VM for a key goes when step 1 or 2 of R84 chose another. -/
def State.dropProvisional (s : State) (vm key : Nat) : State :=
  match (span (keySet key) 16).find? fun i => let e := s.tagAt i
      e.key == key && e.owner == vm && (e.state == stProvFlight || e.state == stProvDone) with
  | some i => s.dropEntry i
  | none => s

/-- The entry with the greatest idle, the lowest way on a tie. -/
def State.idlest (s : State) (is : List Nat) : Option Nat :=
  is.foldl (fun (a : Option Nat) i => match a with
    | none => some i
    | some j => if (s.lreg.frame - (s.tagAt j).lasthit).toNat < (s.lreg.frame - (s.tagAt i).lasthit).toNat then some i else a) none

/-- The victim of R87. -/
def State.landVictim (s : State) (base : Nat) : Option Nat :=
  let ways := span base 16
  match ways.find? fun i => (s.tagAt i).state == stInv with
  | some i => some i
  | none =>
    match s.idlest (ways.filter fun i => (s.tagAt i).state == stProvDone) with
    | some i => some i
    | none => s.idlest (ways.filter fun i => (s.tagAt i).state == stValid)

/-! ## Requests -/

/-- A lookup or provisional request: the VM, the key, the first four words of its object entry, and the requester's
watcher record. -/
structure LandReq where
  vm : Nat
  key : Nat
  obj : List DWord
  who : Word
  deriving DecidableEq, Repr

def LandReq.gen (r : LandReq) : Nat := bits (r.obj.getD 0 0) 55 48
def LandReq.acl (r : LandReq) : Nat := bits (r.obj.getD 0 0) 47 32
def LandReq.queue (r : LandReq) : Nat := bits (r.obj.getD 2 0) 63 56
/-- Payload lines minus one of the key's VAR (R75). -/
def LandReq.sz (r : LandReq) : Nat := bits (r.obj.getD 2 0) 47 0 / 8 ^ keyVar r.key % 8

/-- How a request ends: served, or waiting for a host page of the queue's ring. -/
inductive LandOut where
  | served (s : State) (r : LandRes)
  | wait (s : State)
  deriving DecidableEq, Repr

/-- BUSY with a cause: SETBUSY or HEAPFULL is set (R82, R89). -/
def State.landBusy (s : State) (cause : Nat) : LandOut :=
  let l := s.lreg
  .served { s with lreg := { l with setbusy := l.setbusy || cause == 0, heapfull := l.heapfull || cause == 1 } }
    { code := Code.busy, cause := cause }

/-- The shading record of an entry (R93). -/
def shadingRecord (r : LandReq) (spec refresh : Bool) (handle : Word) (fpay : Nat) (frame : Word) : List Byte :=
  let w0 := spec.toNat * 2 ^ 63 + refresh.toNat * 2 ^ 62 + bits (r.obj.getD 1 0) 63 63 * 2 ^ 61 + r.vm * 2 ^ 56 + r.key
  let w1 := handle.toNat * 2 ^ 32 + r.gen * 2 ^ 24 + r.sz * 2 ^ 21
  let w2 := landingVa + 256 * fpay
  let w3 := bits (r.obj.getD 0 0) 31 0 * 2 ^ 32 + frame.toNat
  [w0, w1, w2, w3].flatMap (leBytes 8)

/-- How allocating and enqueueing ends (R86, R91, R93): the queue is tested first, then the heap. -/
inductive Fill where
  | ok (s : State) (fpay : Nat)
  | fail (s : State) (cause : Nat)
  | wait (s : State)
  deriving DecidableEq, Repr

/-- Enqueue the shading record of way `i` and allocate its payload.  The record's FRAME is that of the reservation (DESIGN CHOICE, log
entry 53). -/
def State.startFill (s : State) (r : LandReq) (i fser : Nat) (spec refresh : Bool) : Fill :=
  let die := i / 2 ^ 19
  let alloc := s.freeBlockOf die (blockLines (r.sz + 1))
  let q := s.enqueue r.vm r.queue 2 (shadingRecord r spec refresh (handleOf i fser) (alloc.getD 0) s.lreg.frame)
  match q with
  | .invalid => .fail { s with lreg := { s.lreg with qerr := true } } 2
  | .full => .fail s 2
  | .wait s' => .wait s'
  | .done s' =>
    match alloc with
    | none => .fail s 1
    | some b =>
      .ok ((blockAt b (r.sz + 1)).foldl (fun s l => s.setLm l (lmOf 2 true false r.vm r.acl)) s') b

/-- The new fill of a way: what rows 1, 7, 8, 11 and 13 share. -/
def State.newFill (s : State) (r : LandReq) (i fser fpay : Nat) (e : TagEntry) (prov : Bool) (watch : List Word) : State :=
  let s := { s with land := { s.land with serial := Sparse.set 0 s.land.serial i fser } }
  s.setTag i { e with
    state := if prov then stProvFlight else stFlight, key := r.key, owner := r.vm, acl := r.acl, gen := r.gen,
    fillframe := s.lreg.frame, lasthit := s.lreg.frame, sz := r.sz, fser := fser, fpay := fpay, watch := watch }

/-- Rows 1 and 13, and their failures. -/
def State.landMiss (s : State) (r : LandReq) (prov : Bool) : LandOut :=
  match s.landVictim (keySet r.key) with
  | none => s.landBusy 0
  | some i =>
    let fser := s.nextSerial i
    match s.startFill r i fser prov false with
    | .wait s' => .wait s'
    | .fail s' cause => s'.landBusy cause
    | .ok s' fpay =>
      let e := s'.tagAt i
      let s'' := s'.quarantineAll e.held
      let e' := { e with retain := false, osz := 0, oldfill := 0 }
      .served (s''.newFill r i fser fpay e' prov (if prov then [0, 0, 0, 0] else [r.who, 0, 0, 0]))
        { code := Code.miss, handle := if prov then 0 else handleOf i fser }

/-- Row 3: FLIGHT, with the requester in WATCH where there is room. -/
def State.landFlight (s : State) (r : LandReq) (i : Nat) : LandOut :=
  let e := s.tagAt i
  if watching e.watch r.who then .served s { code := Code.flight, handle := handleOf i e.fser }
  else if watchFull e.watch then .served s { code := Code.flight, noh := true }
  else .served (s.setTag i { e with watch := addWatch e.watch r.who }) { code := Code.flight, handle := handleOf i e.fser }

/-- Row 7 and row 11: a fill in place of a payload that is not current. -/
def State.landRefill (s : State) (r : LandReq) (i : Nat) : LandOut :=
  let fser := s.nextSerial i
  match s.startFill r i fser false false with
  | .wait s' => .wait s'
  | .fail s' cause => s'.landBusy cause
  | .ok s' fpay =>
    let e := s'.tagAt i
    .served ((s'.quarantineAll e.held).newFill r i fser fpay { e with retain := false, osz := 0, oldfill := 0 } false
        [r.who, 0, 0, 0])
      { code := Code.miss, handle := handleOf i fser }

/-- Row 8: the old payload is served while a new one is filled. -/
def State.landStale (s : State) (r : LandReq) (i : Nat) : LandOut :=
  let e := s.tagAt i
  let res : LandRes :=
    { code := Code.hitStale, sz := e.sz, age := ageOf s.lreg.frame e.fillframe, pay := e.pay, handle := 0 }
  let fser := s.nextSerial i
  match s.startFill r i fser false true with
  | .wait s' => .wait s'
  | .fail s' _ => .served (s'.setTag i { e with lasthit := s.lreg.frame }) res
  | .ok s' fpay =>
    .served (s'.newFill r i fser fpay { e with retain := true, osz := e.sz, oldfill := e.fillframe } false [0, 0, 0, 0]) res

/-- A lookup on an entry chosen by R84 (rows 3-11). -/
def State.landFound (s : State) (r : LandReq) (stale : Bool) (i : Nat) : LandOut :=
  let e := s.tagAt i
  let hitLine := fun (s : State) (st : Nat) =>
    LandOut.served (s.setTag i { e with state := st, lasthit := s.lreg.frame })
      { code := Code.hit, sz := e.sz, age := ageOf s.lreg.frame e.fillframe, pay := e.pay, handle := 0 }
  if e.state == stFlight then
    if stale && e.retain then
      .served (s.setTag i { e with lasthit := s.lreg.frame })
        { code := Code.hitStale, sz := e.osz, age := ageOf s.lreg.frame e.oldfill, pay := e.pay, handle := 0 }
    else s.landFlight r i
  else if e.state == stValid then
    if e.gen == r.gen then hitLine s stValid
    else if stale then s.landStale r i
    else s.landRefill r i
  else if e.state == stProvFlight then
    .served (s.setTag i { e with state := stFlight, lasthit := s.lreg.frame, watch := [r.who, 0, 0, 0] })
      { code := Code.flight, handle := handleOf i e.fser }
  else if e.gen == r.gen then
    -- the payload's lines now belong to a VALID entry (R90)
    hitLine ((blockAt e.pay (e.sz + 1)).foldl (fun s l => s.setLm l (lmOf 2 false true e.owner e.acl)) s) stValid
  else s.landRefill r i

/-- The Landing is not in use: disabled, or a change of EN is pending (R86, R90). -/
def State.landOff (s : State) : Bool := !s.lreg.en || s.lreg.onpend || s.lreg.offpend

/-- A lookup by one lane or ray (rows 1-11, 22). -/
def State.landLookup (s : State) (r : LandReq) (stale : Bool) : LandOut :=
  if s.landOff then .served s { code := Code.busy, cause := 3 }
  else
    let s := s.expireSet (keySet r.key)
    match s.chooseEntry r.vm r.key with
    | some (i, true) => (s.dropProvisional r.vm r.key).landFound r stale i
    | some (i, false) => s.landFound r stale i
    | none => s.landMiss r false

/-- A provisional request by one lane (rows 12-14, 22). -/
def State.landProv (s : State) (r : LandReq) : LandOut :=
  if s.landOff then .served s { code := Code.busy, cause := 3 }
  else
    let s := s.expireSet (keySet r.key)
    match s.chooseEntry r.vm r.key with
    | some (_, true) => .served (s.dropProvisional r.vm r.key) { code := Code.none }
    | some (_, false) => .served s { code := Code.none }
    | none =>
      if s.lreg.provwin = 0 && (s.landVictim (keySet r.key)).isSome then .served s { code := Code.none } else s.landMiss r true

/-- OSCFILL by one lane (rows 15-17): whether it is accepted. -/
def State.landFill (s : State) (vm : Nat) (h : Word) : State × Bool :=
  if s.landOff then (s, false)
  else
    let i := handleIx h
    let s := s.expireSet (i / 16 * 16)
    let e := s.tagAt i
    if e.fser != handleSer h || handleSer h == 0 || e.owner != vm then (s, false)
    else if e.state == stFlight then
      let s := if e.retain then s.quarantine (e.pay, e.osz + 1) else s
      let s := (blockAt e.fpay (e.sz + 1)).foldl (fun s l => s.setLm l (lmOf 2 false true e.owner e.acl)) s
      let s := s.setTag i { e with
        state := stValid, pay := e.fpay, retain := false, osz := 0, oldfill := 0,
        fillframe := s.lreg.frame, lasthit := s.lreg.frame }
      (s.wake i { code := Code.hit, sz := e.sz, age := 0, pay := e.fpay }, true)
    else if e.state == stProvFlight then
      let s := (blockAt e.fpay (e.sz + 1)).foldl (fun s l => s.setLm l (lmOf 2 false false e.owner e.acl)) s
      (s.setTag i { e with state := stProvDone, pay := e.fpay, fillframe := s.lreg.frame }, true)
    else (s, false)

/-- How an OSCWAIT lane goes on (rows 18-20). -/
inductive WaitOut where
  | result (s : State) (r : LandRes)
  | park (s : State) (entry : Nat)
  deriving DecidableEq, Repr

/-- OSCWAIT by one lane (rows 18-20, 22). -/
def State.landWait (s : State) (vm : Nat) (h who : Word) : WaitOut :=
  let i := handleIx h
  let s := s.expireSet (i / 16 * 16)
  let e := s.tagAt i
  if handleSer h == 0 || e.fser != handleSer h || !s.sees vm e then .result s { code := Code.lost, handle := h }
  else if e.state == stValid then
    .result (s.setTag i { e with lasthit := s.lreg.frame })
      { code := Code.hit, sz := e.sz, age := ageOf s.lreg.frame e.fillframe, pay := e.pay, handle := h }
  else if e.state == stFlight then
    if watching e.watch who then .park s i
    else if watchFull e.watch then .result s { code := Code.flight, noh := true, handle := h }
    else .park (s.setTag i { e with watch := addWatch e.watch who }) i
  else .result s { code := Code.lost, handle := h }

/-! ## Generations (R77) -/

/-- The sweep of an object's generation over its home die's tag store: every entry whose key has the object, in any state, those that
nothing has written among them, whose KEY is 0. -/
def State.sweepGen (s : State) (obj gen : Nat) : State :=
  let g := (gen + 128) % 256
  let land : LandSt := { s.land with
    gen0 := if obj = 0 then g else s.land.gen0
    tags := s.land.tags.map fun ie =>
      if ie.1 / 2 ^ 19 == dieOfObj obj && keyObj ie.2.key == obj then (ie.1, { ie.2 with gen := g }) else ie }
  { s with land := { land with tags := land.tags.filter fun ie => ie.2 != land.unwritten ie.1 } }

/-! ## Enabling (R89, R90) -/

/-- LHEAP as it reads. -/
def LandRegs.heapReg (l : LandRegs) : Nat := l.en.toNat * 2 ^ 63 + l.size * 2 ^ 56 + l.base / 2 ^ 29 * 2 ^ 29

/-- The heap that a write names lies in installed storage that is not retired (R89): every die's local addresses below the
heap's end must be present. -/
def State.heapFits (s : State) (size base : Nat) : Bool :=
  decide (1 ≤ size) && decide (size ≤ 64) && decide (base + size * 2 ^ 30 ≤ 2 ^ 40)
    && (List.range 8).all fun d => decide ((base + size * 2 ^ 30) / 8 ≤ s.localLimit d)

/-- LANDING_ENABLE (R89, R90): a write of LHEAP with EN = 1. -/
def execLandingEnable (val : DWord) (s : State) : Out :=
  let size := bits val 62 56
  let base := bits val 51 29 * 2 ^ 29
  let l := s.lreg
  if !val.getLsbD 63 then .fault .eventCannotOccur
  else if l.en || l.onpend || l.offpend then .next s
  else if s.heapFits size base then .next { s with lreg := { l with size := size, base := base, onpend := true } }
  else .next { s with lreg := { l with size := size, base := base } }

/-- Zero is written to every word of the heap's line map at its home L2s, in class BG (R90). -/
def State.clearLineMap (s : State) : State :=
  let lo := s.lreg.base + 63 * s.lreg.size * 2 ^ 24
  let hi := s.lreg.base + s.lreg.size * 2 ^ 30
  s.coverLines (fun k => isHbm k && decide (lo ≤ paOfKey k) && decide (paOfKey k < hi)) []

/-- LANDING_INIT_DONE (R90): the line map is all zeros and EN reads 1. -/
def execLandingInitDone (s : State) : Out :=
  if s.lreg.onpend then
    let s := s.clearLineMap
    .next { s with
      lreg := { s.lreg with onpend := false, en := true }
      land := { s.land with quar := [] } }
  else .fault .eventCannotOccur

/-- LANDING_DISABLE (R89): a write of LHEAP with EN = 0 while EN = 1. -/
def execLandingDisable (val : DWord) (s : State) : Out :=
  let l := s.lreg
  if val.getLsbD 63 then .fault .eventCannotOccur
  else if l.onpend || l.offpend then .next s
  else if l.en then .next { s with lreg := { l with offpend := true } }
  else .next { s with lreg := { l with size := bits val 62 56, base := bits val 51 29 * 2 ^ 29 } }

/-- LANDING_DISABLE_DONE (R86 row 24, R89): every entry is INV, every waiter gets LOST, and EN reads 0. -/
def execLandingDisableDone (s : State) : Out :=
  if s.lreg.offpend then
    let is := s.land.tags.map Prod.fst
    let s := is.foldl (fun s i => s.wake i { code := Code.lost }) s
    .next { s with
      lreg := { s.lreg with offpend := false, en := false }
      land := { s.land with tags := [], gen0 := 0, quar := [] } }
  else .fault .eventCannotOccur

end Sys2Proof.Machine
end

