-- ==== Sys2Proof/Machine/Access.lean ====
section
/-! DEFINITION. What the memory instructions share: counted instructions (R223), the checks of R307 in their order, the
range locks (R142, R143), translation of the lanes' bytes, and loads, stores and scratchpad accesses as bytes. -/
namespace Sys2Proof.Machine

/-! ## Counted instructions (R223) -/

def Wave.counter (w : Wave) : Ctr → Nat
  | .ld => w.ldc
  | .st => w.stc
  | .cp => w.cpc
  | .tl => w.tlc

def Wave.bump (w : Wave) (f : Nat → Nat) : Ctr → Wave
  | .ld => { w with ldc := f w.ldc }
  | .st => { w with stc := f w.stc }
  | .cp => { w with cpc := f w.cpc }
  | .tl => { w with tlc := f w.tlc }

/-- A counted instruction whose counter stands at 63 does not issue (R223). -/
def counted (s : State) (c : Ctx) (ctr : Ctr) (k : Out) : Out :=
  if 63 ≤ c.w.counter ctr then .next s.notReady else k

/-- Count an instruction with its outstanding part; without active lanes it adds nothing (R223). -/
def Wave.count (w : Wave) (act : LaneMask) (n : Counted) : Wave :=
  if act = 0 then w
  else { w.bump (· + 1) n.ctr with counted := w.counted ++ [(w.serial, n)], serial := w.serial + 1 }

/-- Perform one pending write. -/
def Wave.land (w : Wave) (p : PendWrite) : Wave :=
  if 16384 ≤ p.key then
    if p.poison then (w.setFlag ((p.key - 16384) / 32) ((p.key - 16384) % 32) (p.val.getLsbD 0)).setBad p.key
    else w.setFlag ((p.key - 16384) / 32) ((p.key - 16384) % 32) (p.val.getLsbD 0)
  else if p.poison then w.setPoison p.key p.val
  else w.setReg p.key p.val

/-- The keys of a destination in a lane. -/
def Wave.dstKeys (w : Wave) (d : Operand) (l n : Nat) : List Nat :=
  match d with
  | .f k => [flagKey k.val l]
  | _ => (List.range n).filterMap fun j => w.opKey d l j

/-- The pending writes of a result in the active lanes; once for a K destination (R219). -/
def Wave.pending (w : Wave) (act : LaneMask) (d : Operand) (f : Nat → List Word × Bool) : List PendWrite :=
  let one := fun l kl => (w.dstKeys d l (f l).1.length).zip (f l).1 |>.map fun kv => ⟨kl, kv.1, kv.2, (f l).2⟩
  match d with
  | .k _ => match lanesOf act with
    | l :: _ => one l l
    | [] => []
  | _ => (lanesOf act).flatMap fun l => one l l

/-- A record that a lane of a QENQ has posted is not written yet: nothing of the lane's part is done (R323). -/
def Counted.waitsPost (n : Counted) (s : State) (l : Nat) : Bool := n.posts.any fun p => p.1 == l && s.unwritten p.2

/-- The words of a counted instruction that are written as the part of some lanes is done: theirs, and of the other lanes those that a
free value names, since each lane-word is written at a time of its own (R224; DESIGN CHOICE, log entry 4). -/
def Counted.lands (n : Counted) (s : State) (lanes : LaneMask) (p : PendWrite) : Bool :=
  lanes.getLsbD p.lane || (Config.wordLands s.choice p.lane p.key && !n.waitsPost s p.lane)

/-- COUNTER_DONE (R223, R224): the part of a counted instruction for some of its lanes is done; for no lane, some words are written.
What moved data to or from HBM is done in a slot of the HBM calendar that serves its class (R64, R68). -/
def execCounterDone (wave idx : Nat) (lanes : LaneMask) (s : State) : Out :=
  let w := s.wave wave
  match w.counted.find? fun e => e.1 == idx with
  | none => .fault .eventCannotOccur
  | some (_, n) =>
    if n.op.isSome || n.discarded || (lanes == 0 && n.writes.all fun p => !n.lands s 0 p) || (lanesOf lanes).any (n.waitsPost s)
        || (lanes &&& n.lanes) != lanes || n.parked.any (fun p => lanes.getLsbD p.lane) then .fault .eventCannotOccur
    else
      let w1 := (n.writes.filter (n.lands s lanes)).foldl Wave.land w
      let n' := { n with lanes := n.lanes &&& ~~~ lanes, writes := n.writes.filter fun p => !n.lands s lanes p }
      let w2 :=
        if n'.lanes = 0 then { w1.bump (· - 1) n.ctr with counted := w1.counted.filter fun e => e.1 != idx }
        else { w1 with counted := w1.counted.map fun e => if e.1 == idx then (idx, n') else e }
      let t := s.setWave wave w2
      if n.moved && !s.slotFor 1 (s.block w.block).cls.val then .fault .eventCannotOccur else .next t

/-- What an issue that moved data to or from HBM has counted since a serial is done only in a slot of the HBM calendar (R68). -/
def State.markMoved (s t : State) (wi since : Nat) : State :=
  if t.l2.moves == s.l2.moves then t
  else t.updWave wi fun w => { w with counted := w.counted.map fun e => if since ≤ e.1 then (e.1, { e.2 with moved := true }) else e }

/-! ## Addresses (R10, R306) -/

/-- The 64-bit address of a lane. -/
def Ctx.addr64 (c : Ctx) (a b : Operand) (off : Word) (l : Nat) : Nat :=
  ((c.w.read b l ++ c.w.read a l) + off.signExtend 64).toNat
/-- The scratchpad offset of a lane. -/
def Ctx.addrScr (c : Ctx) (a : Operand) (off : Word) (l : Nat) : Nat := (c.w.read a l + off).toNat

/-- The accesses of the active lanes: lane and address. -/
def Ctx.accs (c : Ctx) (scr : Bool) (a b : Operand) (off : Word) : List (Nat × Nat) :=
  (lanesOf c.act).map fun l => (l, if scr then c.addrScr a off l else c.addr64 a b off l)

/-- Bytes of a block's scratchpad allocation (R41). -/
def Block.scrBytes (b : Block) : Nat := 4096 * b.scrUnits

/-- A trap with the mask of the lanes that fail and the address of the first. -/
def failCheck (cause : Byte) (accs : List (Nat × Nat)) (bad : Nat → Bool) : Check :=
  match accs.filter fun x => bad x.2 with
  | [] => none
  | x :: t => some (cause, maskOfList ((x :: t).map Prod.fst), .ofNat 64 x.2)

/-- BAD_ADDRESS or SCRATCH_BOUND over `w` bytes (R10, R24, R25). -/
def Ctx.boundCheck (s : State) (c : Ctx) (scr : Bool) (accs : List (Nat × Nat)) (w : Nat) : Check :=
  if scr then failCheck Cause.scratchBound accs fun a => decide (c.b.scrBytes < a + w)
  else failCheck Cause.badAddress accs fun a => !s.rangeOk a w || (c.b.svc && decide (landingVa < a + w))

/-- ALIGNMENT (R310). -/
def alignCheck (accs : List (Nat × Nat)) (w : Nat) : Check := failCheck Cause.alignment accs fun a => a % w != 0

/-! ## Range locks (R142, R143) -/

/-- The space code of an address: 0 global, 1 Landing window, 2 scratchpad (R144). -/
def spaceOf (scr : Bool) (a : Nat) : Nat := if scr then 2 else if landingVa ≤ a then 1 else 0

/-- The physical scratchpad offset of a block's first byte (R41, R142). -/
def Block.scrPhys (b : Block) : Nat := 4096 * b.scrBase

/-- An access of `w` bytes at a VA or physical scratchpad offset matches an entry (R142). -/
def Lock.matches (k : Lock) (vm : Nat) (asid : BitVec 16) (space a w : Nat) : Bool :=
  k.space == space && (space == 2 || (k.vm == vm && k.asid == asid))
    && decide (a / 16 ≤ k.last) && decide (k.base ≤ (a + w - 1) / 16)

/-- The entries of a core's table that an access meets: destination locks for a read, any lock for a write (R143). -/
def lockHits (locks : List (Option Lock)) (vm : Nat) (asid : BitVec 16) (write : Bool) (space a w : Nat) : List (Nat × Lock) :=
  if w = 0 then []
  else (List.range locks.length).filterMap fun i =>
    match locks.getD i none with
    | some k => if (write || k.dst) && k.matches vm asid space a w then some (i, k) else none
    | none => none

/-- The first entry of some that were met (R143). -/
def firstHit (hits : List (Nat × Lock)) : Option (Nat × Lock) :=
  hits.foldl (fun m x => match m with
    | none => some x
    | some y => some (if x.1 < y.1 then x else y)) none

/-- What a lane access of a block matches entries by: its VA, or its physical scratchpad offset (R142). -/
def Block.lockAddr (b : Block) (scr : Bool) (a : Nat) : Nat := if scr then b.scrPhys + a else a

/-- RANGE_LOCK for lane accesses (R143). -/
def Ctx.lockCheck (s : State) (c : Ctx) (write scr : Bool) (accs : List (Nat × Nat)) (w : Nat) : Check :=
  let accs := if c.b.svc then [] else accs
  let hits := accs.map fun x =>
    (x.1, lockHits (s.core c.b.core).locks c.g.vm c.g.asid write (spaceOf scr x.2) (c.b.lockAddr scr x.2) w)
  let bad := hits.filter fun h => h.2 != []
  match firstHit (bad.flatMap fun h => h.2) with
  | none => none
  | some (i, k) => some (Cause.rangeLock, maskOfList (bad.map Prod.fst), .ofNat 64 (i * 256 + k.tag))

/-! ## Translation and what follows it (R307 steps 5 and 6) -/

/-- The VAs a lane's access covers in the translated spaces. -/
def walkedVas (accs : List (Nat × Nat)) (w : Nat) : List Nat :=
  (accs.flatMap fun x => span x.2 w).filter fun va => decide (va < landingVa)

/-- Whether an access of `w` bytes touches the 64 KiB unit of a VA, and so waits on its fault record (R35). -/
def inUnit (va a w : Nat) : Bool := decide (a / 65536 ≤ va / 65536) && decide (va / 65536 ≤ (a + w - 1) / 65536)

/-- MEMORY_FAULT for every lane whose access waits on the record of the cancelled VA (R35, R36; DEDUCED, log entry 42). -/
def Ctx.cancelCheck (c : Ctx) (accs : List (Nat × Nat)) (w : Nat) : Check :=
  match c.w.cancel with
  | none => none
  | some (slotB, va, detail) =>
    if slotB != c.isB then none
    else match accs.filter fun x => inUnit va x.2 w with
    | [] => none
    | x :: t => some (Cause.memoryFault, maskOfList ((x :: t).map Prod.fst), detail)

/-- The structure of R27 that a lane access of the context looks in. -/
def Ctx.unit (c : Ctx) : Nat := tlbLane c.b.core

/-- A wave that waits for the translation of some missing pages (R28). -/
def State.stallOn (s : State) (c : Ctx) (sp : Space) (acc : Access) (vas : List Nat) : State :=
  s.setWave c.wi { c.w with stalls := vas.map fun va => ⟨c.isB, sp, va, acc, none⟩ }

/-- The location of a byte of an access: linear in the Landing window, else by the cached translations. -/
def State.locOf (s : State) (c : Ctx) (acc : Access) (va : Nat) : Loc :=
  if landingVa ≤ va then { key := s.heapKey (va - landingVa), bypass := false, cmp := false }
  else (s.lookup c.unit c.space acc va).getD { key := va, bypass := true, cmp := false }

/-- The block that a lane load of a byte meets, and its expander (R104): the core's for a block that its L1 holds or may take, else
the one on the way from the home; none where the byte is plain in the L1 or at the home. -/
def State.loadBlock (s : State) (core : Nat) (l : Loc) : Option (Nat × List Byte) :=
  let held := s.heldBlock l.key
  let fromHome := if held = [] then none
    else some (if blockExp held = 2 && l.cmp && !l.bypass then expCore core else s.expHome l.key held, held)
  match (s.core core).line l.key with
  | some ln =>
    if l.bypass || !ln.hits (l.key % 256) then fromHome
    else if ln.comp = [] then none else some (expCore core, ln.comp)
  | none => fromHome

/-- STALE_TABLE for a load: a prefix block whose generation its expander does not hold (R106). -/
def State.staleAt (s : State) (core : Nat) (l : Loc) : Bool :=
  isHbm l.key && match s.loadBlock core l with
    | some (e, b) => !s.expands e b
    | none => false

/-- STALE_TABLE (R106): the lanes whose access meets a stale line, and the address of the first such line (R396). -/
def Ctx.staleCheck (s : State) (c : Ctx) (accs : List (Nat × Nat)) (w : Nat) : Check :=
  if s.cmp.stored = [] && (s.core c.b.core).l1.all (fun ln => ln.comp = []) then none
  else
    let stale := fun va => s.staleAt c.b.core (s.locOf c .load va)
    match accs.filter fun x => (span x.2 w).any stale with
    | [] => none
    | x :: t => some (Cause.staleTable, maskOfList ((x :: t).map Prod.fst),
        .ofNat 64 (((span x.2 w).find? stale).getD x.2 / 256 * 256))

/-- LANDING_ACCESS (R92). -/
def Ctx.landingCheck (s : State) (c : Ctx) (write : Bool) (accs : List (Nat × Nat)) (w : Nat) : Check :=
  failCheck Cause.landingAccess accs fun a =>
    (span a w).any fun va => decide (landingVa ≤ va) && !s.landingOk c.g.vm write (va - landingVa)

/-- SPECULATION_VIOLATION (R95). -/
def Ctx.specCheck (c : Ctx) (accs : List (Nat × Nat)) (w : Nat) : Check :=
  failCheck Cause.speculationViolation accs fun a => (span a w).any fun va => !windowAdmits c.w.spec va

/-- Steps 5 and 6 of R307 for accesses of `w` bytes to the translated spaces, then the access itself. -/
def reach (s : State) (c : Ctx) (acc : Access) (accs : List (Nat × Nat)) (w : Nat) (k : Out) : Out :=
  guardTraps s c [c.cancelCheck accs w]
    (match s.misses c.unit c.space acc (walkedVas accs w) with
     | va :: more => .next (s.stallOn c c.space acc (va :: more))
     | [] =>
       guardTraps s c
         ([if acc.writes then none else c.staleCheck s accs w, c.landingCheck s acc.writes accs w]
           ++ (if acc.writes then [c.specCheck accs w] else []))
         k)

/-! ## Bytes -/

/-- Read one byte for a lane: through the L1, or at the home where the access bypasses it or asks for the home (R47, R49, R115), or
where no way of its set is left (R71).  A read at the home leaves no older copy of its sector in the L1, which a later load of the
lane could return (R116). -/
def State.loadByte (s : State) (core cls : Nat) (home : Bool) (l : Loc) : State × Byte × Bool :=
  if home || l.bypass || (s.core core).noWay l.key then
    let s1 := (s.l1Atomic core cls [l.key]).l2Touch l.key cls false
    (s1, s1.byte l.key, s1.secPoison l.key)
  else
    let s1 := (s.l1Ensure core cls l.cmp [l.key]).l1Undecoded core l.key
    (s1, s1.l1Byte core l.key)

/-- Read bytes for a lane, in order, with whether any is poisoned. -/
def State.loadBytes (s : State) (core cls : Nat) (home : Bool) : List Loc → State × List Byte × Bool
  | [] => (s, [], false)
  | l :: ls =>
    let r := s.loadByte core cls home l
    let rest := r.1.loadBytes core cls home ls
    (rest.1, r.2.1 :: rest.2.1, r.2.2 || rest.2.2)

/-- Store bytes: in the L1, or at their homes where the access bypasses it or no way is left (R47, R49, R50, R71). -/
def State.storeBytes (s : State) (core cls : Nat) (kvs : List (Loc × Byte)) : State :=
  let direct := kvs.filter fun kv => kv.1.bypass || (s.core core).noWay kv.1.key
  let cached := kvs.filter fun kv => !(kv.1.bypass || (s.core core).noWay kv.1.key)
  let dk := direct.map fun kv => (kv.1.key, kv.2)
  let s := if direct = [] then s else (s.l1Atomic core cls (dk.map Prod.fst)).homeWrite cls dk
  s.l1Store core cls (cached.map fun kv => (kv.1.key, kv.2))

/-! ## Scratchpad (R41-R44) -/

/-- A byte of a block's scratchpad, with the poison of its word. -/
def Block.scrByte (b : Block) (o : Nat) : Byte × Bool := (Sparse.get 0 b.scratch o, Sparse.get false b.scrPoison (o / 4))

/-- Write bytes of the scratchpad: a word written whole loses its poison, one written in part keeps it (R70). -/
def Block.scrWrite (b : Block) (kvs : List (Nat × Byte)) : Block :=
  let b := { b with scratch := Sparse.setAll 0 b.scratch kvs }
  if b.scrPoison = [] then b
  else
    let ks := kvs.map Prod.fst
    let whole := ((ks.map fun k => k / 4).eraseDups).filter fun q => (List.range 4).all fun i => ks.contains (4 * q + i)
    { b with scrPoison := whole.foldl (fun p q => Sparse.set false p q false) b.scrPoison }

/-- The clk a scratchpad instruction occupies (R43): the most distinct words that lanes touch in one bank. -/
def bankClk (accs : List (Nat × Nat)) (w : Nat) : Nat :=
  let words := (accs.flatMap fun x => (span x.2 w).map fun o => o / 4).eraseDups
  (List.range 64).foldl (fun n k => max n (words.countP fun q => q % 64 == k)) 1

/-- The scratchpad that a block's lanes access: its core's, or its service core's (R414). -/
def scrOf (b : Block) : Nat := if b.svc then 160 + clusterOf b.core else b.core

/-- A lane access to the scratchpad of a block issues once the one before it no longer occupies it (R43). -/
def scrTurn (s : State) (b : Block) (k : Out) : Out := if s.clk < (s.core (scrOf b)).scrBusy then .next s.notReady else k

/-- The wave issues nothing further while its scratchpad access goes on (R43). -/
def Wave.occupy (w : Wave) (clk n : Nat) : Wave := { w with hold := max w.hold (clk + n) }

/-- A lane access of a wave of a block occupies the scratchpad and the wave for its clk (R43). -/
def State.occupyScr (s : State) (wi : Nat) (b : Block) (n : Nat) : State :=
  (s.updCore (scrOf b) fun k => { k with scrBusy := s.clk + n }).updWave wi fun w => w.occupy s.clk n

end Sys2Proof.Machine
end

