-- ==== Sys2Proof/Machine/Window.lean ====
section
/-! DEFINITION. Register windows (R174-R192): frames, CALL and RET of the window, and the work that the Window Ferry of a
core holds for its waves. -/
namespace Sys2Proof.Machine

/-- The registers of a frame (R185: FSZ is f/4). -/
def Frame.size (f : Frame) : Nat := 4 * f.fsz

/-- The sum S of the sizes of the frames on the list (R182). -/
def Wave.frameSum (w : Wave) : Nat := w.frames.foldl (fun a f => a + f.size) 0

/-- The wave a piece of Ferry work belongs to. -/
def FerryJob.wave : FerryJob → Nat
  | .spill w .. | .record w .. | .push w .. | .pop w .. => w

/-- The Ferry work of a wave that is not done. -/
def CoreSt.jobsOf (c : CoreSt) (wi : Nat) : List FerryJob := c.ferry.filter fun j => j.wave == wi

/-- Registers of the frames that some work spills. -/
def spillSize (js : List FerryJob) : Nat :=
  js.foldl (fun a j => match j with
    | .spill _ _ _ rs => a + rs.length
    | _ => a) 0

/-- Registers of frames in the Ferry's buffer (R187: it holds 512). -/
def CoreSt.buffered (c : CoreSt) : Nat := spillSize c.ferry

/-- Add work to a core's Ferry. -/
def State.addJobs (s : State) (core : Nat) (js : List FerryJob) : State :=
  if js = [] then s else s.updCore core fun c => { c with ferry := c.ferry ++ js }

/-- A frame's registers in the ring: positions SBASE mod N onward, since WB is the sum of the sizes below it (R182). -/
def Wave.frameRegs (w : Wave) (f : Frame) : List (List Word × LaneMask) :=
  (List.range f.size).map fun i =>
    let pos := (f.sbase + i) % w.ringN
    ((List.range 32).map fun l => w.reg (ringKey pos l), maskOf fun l => w.poisoned (ringKey pos l))

/-- Spill the oldest resident frames until no more than N - W registers are held (R182); the jobs the Ferry receives.  The record of a
frame that lies in the overflow region gets its SPILLED there (R185). -/
def Wave.spillLoop (wi : Nat) : Nat → Wave → Wave × List FerryJob
  | 0, w => (w, [])
  | fuel + 1, w =>
    if w.res ≤ w.ringN - w.win then (w, [])
    else
      let k := w.frames.findIdx fun f => !f.spilled
      match w.frames[k]? with
      | none => (w, [])
      | some f =>
        let w' := { w with frames := w.frames.set k { f with spilled := true }, res := w.res - f.size }
        let rest := Wave.spillLoop wi fuel w'
        let away := if k < w.frames.length - w.onchip then [FerryJob.record wi (k + 1) { f with spilled := true }] else []
        (rest.1, .spill wi k f.sbase (w.frameRegs f) :: (away ++ rest.2))

/-- The window actions of CALL after its checks (R182, R188): a frame of `f` registers is pushed, a CALL at DEPTH 16 or more sends the
oldest on-chip record to the overflow region, and frames are spilled. -/
def Wave.callWindow (w : Wave) (wi f : Nat) (retpc : DWord) : Wave × List FerryJob :=
  let fr : Frame := ⟨retpc, f / 4, false, w.frameSum⟩
  let sends := decide (16 ≤ w.depth) && w.onchip != 0
  let k := w.frames.length - w.onchip
  let sent := if !sends then [] else (w.frames[k]?.map fun old => FerryJob.record wi (k + 1) old).toList
  let w1 := { w with
    frames := w.frames ++ [fr], wb := (w.wb + f) % w.ringN, res := w.res + f
    onchip := if sends then w.onchip else w.onchip + 1 }
  let r := Wave.spillLoop wi (w1.frames.length + 1) w1
  (r.1, sent ++ r.2)

/-- The checks of CALL on the window, in order (R182). -/
def Wave.callTrap (w : Wave) (f : Nat) : Option Byte :=
  if w.win < f then some Cause.regBound
  else if w.depth = 4096 || decide (512 * w.spillUnits < w.frameSum + f) then some Cause.windowOverflow
  else none

/-- The window part of RET for a frame whose registers are in the ring (R183): `held` says that they count in RES. -/
def Wave.popWindow (w : Wave) (f : Frame) (held : Bool) : Wave :=
  { w with
    frames := w.frames.dropLast, onchip := w.onchip - 1
    wb := (w.wb + w.ringN - f.size % w.ringN) % w.ringN
    res := if held then w.res - f.size else w.res }

/-- Unwind to a depth (R288): pop frames; stop at one that must be refilled or whose record is not on chip. -/
def Wave.unwindTo (target : Nat) : Nat → Wave → Wave
  | 0, w => w
  | fuel + 1, w =>
    if w.depth ≤ target then { w with unwind := none, refilling := false }
    else match w.frames.getLast? with
      | none => w
      | some f =>
        if w.onchip = 0 then { w with unwind := some target, refilling := false }
        else if f.spilled then { w with unwind := some target, refilling := true }
        else Wave.unwindTo target fuel (w.popWindow f true)

/-- After an exit of part of a wave: unwind where no record stands at the wave's depth (R288). -/
def Wave.unwindAll (w : Wave) : Wave :=
  let ds := w.records.map Path.depth
  if ds = [] then { w with frames := [], onchip := 0, res := 0 }
  else
    let m := ds.foldl max 0
    if w.depth ≤ m then w else Wave.unwindTo m (w.depth + 1) w

/-- The Ferry work that a change of the split stack asks for (R202): entries that changed or are new are pushed, entries
that went are popped. -/
def splitJobs (wi : Nat) (old new : List Path) : List FerryJob :=
  ((List.range old.length).filterMap fun k => if new.length ≤ k then some (FerryJob.pop wi k) else none)
    ++ (List.range new.length).filterMap fun k =>
      match new[k]? with
      | some p => if old[k]? = some p then none else some (.push wi k p)
      | none => none

/-- Finish an instruction that sets its own PC and paths: `w` already carries the marks of its issue. -/
def State.finish (s : State) (c : Ctx) (w : Wave) (a b : Option Operand) : State :=
  let w := w.reuse c.w c.act c.h.hint a b
  (s.setWave c.wi w).addJobs c.b.core (splitJobs c.wi c.w.split w.split)

/-- The wave with the marks of its issue. -/
def Ctx.go (s : State) (c : Ctx) : Wave := c.w.issued c.isB c.h s.clk

/-! ## The spill area (R186, R192, R193) -/

/-- The context VA of register `i` of the frame at spill slot `sb`. -/
def Wave.slotVa (w : Wave) (sb i : Nat) : Nat := w.ctx + 128 * (sb + i)

/-- The context space of a wave's VM. -/
def State.ctxSpace (s : State) (wi : Nat) : Space := ⟨(s.grid (s.block (s.wave wi).block).grid).vm, 0, true, false⟩

/-- The 128 bytes of one ring register. -/
def regBytes (ws : List Word) : List Byte := (List.range 128).map fun j => (ws.getD (j / 4) 0).extractLsb' (8 * (j % 4)) 8

/-- Whether a half of a register holds a poisoned word: lanes 0-15 and 16-31 share a sector each. -/
def halfPoison (m : LaneMask) (half : Nat) : Bool := (List.range 16).any fun i => m.getLsbD (16 * half + i)

/-- Where the registers of a spilled frame go, if their context addresses translate. -/
def State.spillPlace (s : State) (core wi sb n : Nat) : Option Nat :=
  match s.place (clusterOf core) (s.block (s.wave wi).block).cls.val (s.ctxSpace wi) .spill ((s.wave wi).slotVa sb n) with
  | .ok _ l => some l.key
  | _ => none

/-- The sectors of a job of a Ferry that a read of the spill area now finds written are written (R192; DESIGN CHOICE, log entry 48). -/
def State.spillPart (s : State) (core : Nat) (j : FerryJob) : State :=
  match j with
  | .spill wi _ sb regs =>
    regs.zipIdx.foldl (fun s r => match s.spillPlace core wi sb r.2 with
      | none => s
      | some k => (List.range 2).foldl (fun s h =>
          if Config.spillSeen s.choice (k + 64 * h) then
            let s := s.homeWrite (s.block (s.wave wi).block).cls.val (writesFrom (k + 64 * h) (((regBytes r.1.1).drop (64 * h)).take 64))
            if halfPoison r.1.2 h then s.setSecPoison (k + 64 * h) true else s
          else s) s) s
  | _ => s

/-- What a service core that reads without WSYNC may find of the spills under way on its cluster's cores (R192). -/
def State.spillRead (s : State) (cluster : Nat) : State :=
  s.cores.foldl (fun s k => if clusterOf k.1 = cluster then k.2.ferry.foldl (fun s j => s.spillPart k.1 j) s else s) s

end Sys2Proof.Machine
end

