-- ==== Sys2Proof/Machine/Control.lean ====
section
/-! DEFINITION. The instructions of group 0x1: branches, structured flow, joins, calls, returns and EXIT (R196-R206,
R280-R289). -/
namespace Sys2Proof.Machine

/-- A code target: the instruction's address + 4 * IMM, IMM signed, modulo 2^64 (R280). -/
def Ctx.target (c : Ctx) (imm : Word) : DWord := c.pc + (imm.signExtend 64 <<< 2)

/-- The lanes of the issuing slot's MASK. -/
def Ctx.mask (c : Ctx) : LaneMask := c.path.mask

/-- Lane `l` is active under guard 0 (R195). -/
def Ctx.on (c : Ctx) (l : Nat) : Bool := c.act.getLsbD l

/-- Change the counters of the lanes of the slot's MASK (R197). -/
def Ctx.mapNest (c : Ctx) (w : Wave) (f : Nat → Nat → Nat) : Wave :=
  (lanesOf c.mask).foldl (fun w l => w.setNest l (f l (w.nestOf l))) w

/-- Some lane of the slot's MASK has counter 0. -/
def Ctx.anyZero (c : Ctx) (w : Wave) : Bool := (lanesOf c.mask).any fun l => w.nestOf l == 0

/-- The lanes whose counter `f` would take above 63 (R198). -/
def Ctx.nestOver (c : Ctx) (f : Nat → Nat → Nat) : Check :=
  let m := maskOf fun l => c.mask.getLsbD l && decide (63 < f l (c.w.nestOf l))
  if m = 0 then none else some (Cause.nestingOverflow, m, 0)

/-! ## Branches (R201, R202) -/

/-- BRA: the whole slot goes to the target, whatever the counters (R201). -/
def execBra (h : Hdr) (target : Word) (s : State) : Out :=
  issue s h fun c => .next (s.finish c ((c.go s).goto c.isB (c.target target)) none none)

/-- BRC: no lane taken, every lane taken, or a split (R201, R202). -/
def execBrc (h : Hdr) (x : Operand) (target : Word) (s : State) : Out :=
  issue s h fun c =>
    let t := maskOf fun l => c.on l && c.w.cond x l
    let w := c.go s
    if t = 0 then .next (s.finish c (w.step12 c.isB) (some x) none)
    else if t = c.mask then .next (s.finish c (w.goto c.isB (c.target target)) (some x) none)
    else
      guardTraps s c [if c.w.room c.isB 1 then none else some (Cause.splitOverflow, c.act, 0)]
        (let p : Path := { mask := t, pc := c.target target, depth := c.path.depth }
         let w := w.setPath c.isB { w.path c.isB with mask := c.mask &&& ~~~ t, pc := c.pc + 12 }
         .next (s.finish c (w.place c.isB p) (some x) none))

/-! ## Joins (R203-R205) -/

/-- JMASK: Jn becomes the active lanes; what is parked on it goes on without a merge (R203), in a slot where one is empty (R202). -/
def execJmask (h : Hdr) (d : Operand) (s : State) : Out :=
  issue s h fun c =>
    match d with
    | .j n => .next (s.finish c (((((c.go s).unpark n.val).setJ n.val c.act).cure (jKey n.val)).step12 c.isB).fill none none)
    | _ => .next (s.finish c ((c.go s).step12 c.isB) none none)

/-- JOIN on `Jn` (R204, R205); the Ferry reads an entry that takes the slot before the parked record takes its place. -/
def joinOn (s : State) (c : Ctx) (n : Fin 8) : Out :=
  let left := c.w.jOf n.val &&& ~~~ c.mask
  let w := ((c.go s).setJ n.val left).step12 c.isB
  if left ≠ 0 then
    let w := w.setPath c.isB { w.path c.isB with park := true, pj := n }
    let read := ((w.exchange c.isB).map fun k => FerryJob.pop c.wi k).toList
    .next ((s.addJobs c.b.core read).finish c (w.parked c.isB) (some (.j n)) none)
  else
    let others := w.parkedOthers c.isB n.val
    if others.any fun p => p.depth != c.path.depth then trap s c Cause.illegalConvergence c.act
    else
      let mask := others.foldl (fun m p => m ||| p.mask) c.mask
      let w := w.dropParked c.isB n.val
      .next (s.finish c ((w.setPath c.isB { w.path c.isB with mask := mask }).fill) (some (.j n)) none)

/-- JOIN (R204). -/
def execJoin (h : Hdr) (a : Operand) (s : State) : Out :=
  issue s h fun c =>
    match a with
    | .j n => joinOn s c n
    | _ => .next (s.finish c ((c.go s).step12 c.isB) none none)

/-! ## Structured flow (R197, R198) -/

/-- The counter of a lane after IF. -/
def Ctx.ifNest (c : Ctx) (x : Operand) (l n : Nat) : Nat :=
  if 0 < n then n + 1 else if c.w.cond x l then 0 else 1

/-- IF (R197, R198). -/
def execIf (h : Hdr) (x : Operand) (target : Word) (s : State) : Out :=
  issue s h fun c =>
    guardTraps s c [c.nestOver (c.ifNest x)]
      (let w := c.mapNest (c.go s) (c.ifNest x)
       .next (s.finish c (if c.anyZero w then w.step12 c.isB else w.goto c.isB (c.target target)) (some x) none))

/-- ELSE (R197). -/
def execElse (h : Hdr) (target : Word) (s : State) : Out :=
  issue s h fun c =>
    let w := c.mapNest (c.go s) fun _ n => if n = 0 then 1 else if n = 1 then 0 else n
    .next (s.finish c (if c.anyZero w then w.step12 c.isB else w.goto c.isB (c.target target)) none none)

/-- ENDIF (R197). -/
def execEndif (h : Hdr) (s : State) : Out :=
  issue s h fun c => .next (s.finish c ((c.mapNest (c.go s) fun _ n => n - 1).step12 c.isB) none none)

/-- LOOP (R197, R198). -/
def execLoop (h : Hdr) (s : State) : Out :=
  issue s h fun c =>
    guardTraps s c [c.nestOver fun _ n => if n = 0 then 0 else n + 2]
      (.next (s.finish c ((c.mapNest (c.go s) fun _ n => if n = 0 then 0 else n + 2).step12 c.isB) none none))

/-- Set the counter of the active lanes whose condition holds. -/
def Ctx.leave (c : Ctx) (s : State) (x : Operand) (n : Nat) : Wave :=
  (c.mapNest (c.go s) fun l k => if c.on l && c.w.cond x l then n else k).step12 c.isB

/-- BREAK (R197). -/
def execBreak (h : Hdr) (x : Operand) (n : BitVec 6) (s : State) : Out :=
  issue s h fun c => .next (s.finish c (c.leave s x n.toNat) (some x) none)

/-- CONT (R197). -/
def execCont (h : Hdr) (x : Operand) (n : BitVec 6) (s : State) : Out :=
  issue s h fun c => .next (s.finish c (c.leave s x (n.toNat - 1)) (some x) none)

/-- ENDLOOP (R197). -/
def execEndloop (h : Hdr) (target : Word) (s : State) : Out :=
  issue s h fun c =>
    let w := c.mapNest (c.go s) fun _ n => if n = 1 then 0 else n
    .next (s.finish c (if c.anyZero w then w.goto c.isB (c.target target)
      else (c.mapNest w fun _ n => n - 2).step12 c.isB) none none)

/-! ## Calls (R284-R286) -/

/-- The effect of a call whose active lanes name the targets `t` (R285): the lanes of the lowest active lane's target enter
the callee with the lanes held by structured flow; the others wait as records Y and Z at the old depth. -/
def callTo (s : State) (c : Ctx) (f : Nat) (t : Nat → DWord) (bad : LaneMask) (a b : Option Operand) : Out :=
  match lanesOf c.act with
  | [] => .next (s.finish c ((c.go s).step12 c.isB) a b)
  | q :: _ =>
    let y := maskOf fun l => c.on l && t l != t q
    let z := maskOf fun l => c.w.laneOn c.isB l && !c.on l
    let stay := c.mask &&& ~~~ y &&& ~~~ z
    let need := (if y = 0 then 0 else 1) + (if z = 0 then 0 else 1)
    guardTraps s c
      [if bad = 0 then none else some (Cause.badTarget, bad, 0), (c.w.callTrap f).map fun k => (k, c.act, 0),
       if c.w.room c.isB need then none else some (Cause.splitOverflow, c.act, 0)]
      (let r := (c.go s).callWindow c.wi f (c.pc + 12)
       if 512 < (s.core c.b.core).buffered + spillSize r.2 then .next s.notReady
       else
        let w := r.1
        let w := if y = 0 then w else w.place c.isB { mask := y, pc := c.pc, depth := c.path.depth }
        let w := if z = 0 then w else w.place c.isB { mask := z, pc := c.pc + 12, depth := c.path.depth }
        let w := w.setPath c.isB { w.path c.isB with mask := stay, depth := w.depth, pc := t q }
        .next ((s.finish c w a b).addJobs c.b.core r.2))

/-- CALL (R284, R285). -/
def execCall (h : Hdr) (f4 : BitVec 5) (target : Word) (s : State) : Out :=
  issue s h fun c => callTo s c (4 * f4.toNat) (fun _ => c.target target) 0 none none

/-- CALLI: the target {B, A} per lane; BAD_TARGET for one that is no code address (R284, R285). -/
def execCalli (h : Hdr) (f4 : BitVec 5) (a b : Operand) (s : State) : Out :=
  issue s h fun c =>
    let t := fun l => (c.w.read b l ++ c.w.read a l : DWord)
    let bad := maskOf fun l => c.on l && (bits (t l) 63 56 != 0 || bits (t l) 1 0 != 0)
    guardTraps s c [c.regCheck [] [(a, 1), (b, 1)]] (callTo s c (4 * f4.toNat) t bad (some a) (some b))

/-! ## RET and EXIT (R183, R287-R289) -/

/-- The lanes that forbid a RET: lanes of the slot with counter 0 that are not active, and the lanes of every other record
at the wave's depth (R287). -/
def Ctx.retStrays (c : Ctx) : LaneMask :=
  let held := maskOf fun l => c.w.laneOn c.isB l && !c.on l
  let others := (if (c.w.slot (!c.isB)).valid then [c.w.path (!c.isB)] else []) ++ c.w.split
  (others.filter fun p => p.depth == c.w.depth).foldl (fun m p => m ||| p.mask) held

/-- RET: the newest frame is popped at once when its registers are in the ring; otherwise the slot waits for its refill
(R183, R287, R188). -/
def execRet (h : Hdr) (s : State) : Out :=
  issue s h fun c =>
    guardTraps s c
      [if c.w.depth = 0 then some (Cause.windowUnderflow, c.act, 0) else none,
       if c.retStrays = 0 then none else some (Cause.illegalConvergence, c.retStrays, 0)]
      (match c.w.frames.getLast? with
       | none => .next s
       | some f =>
         if f.spilled || c.w.onchip = 0 then
           .next ((s.waits c).updWave c.wi fun w =>
            { w with refilling := true, refillB := c.isB, young := h.hint.yield })
         else
           let w := (c.go s).popWindow f true
           .next (s.finish c (w.setPath c.isB { w.path c.isB with pc := f.retpc, depth := w.depth }) none none))

/-- A wave has ended: its member exits count, its frames go, and with the last wave its block is ending (R206, R289). -/
def State.endWave (s : State) (wi : Nat) : State :=
  let w := s.wave wi
  let s := s.setWave wi { w with life := .ended, frames := [], onchip := 0, res := 0, counted := [], triple := [] }
  let s := s.updCore (s.block w.block).core fun k => { k with ferry := k.ferry.filter fun j => j.wave != wi }
  let s := s.memberExit w.block w.role
  if (s.block w.block).waves.all fun i => (s.wave i).life == .ended then s.updBlock w.block fun b => { b with ending := true }
  else s

/-- A wave after lanes have exited or its state has been edited: empty slots are filled (R202), frames above every record are unwound
(R288), and a wave with no lane left ends (R206); `old` is its split stack as the Ferry knows it. -/
def State.settleWave (s : State) (wi : Nat) (old : List Path) (w : Wave) : State :=
  let w1 := w.fill.unwindAll
  let s1 := (s.setWave wi w1).addJobs (s.block w.block).core (splitJobs wi old w1.split)
  if (w1.launched &&& ~~~ w1.exited) = 0 then s1.endWave wi else s1

/-- The lanes of a mask exit from a wave (R206). -/
def State.exitFrom (s : State) (wi : Nat) (w : Wave) (m : LaneMask) : State := s.settleWave wi w.split (w.exitLanes m)

/-- Return from a trap (R213, R399): the checks pass and the wave goes on from its state as one that reached it by itself, or its block
is killed. -/
def State.returnFromTrap (s : State) (wi : Nat) : State :=
  let w := s.wave wi
  if w.resumable then s.settleWave wi w.split { w.refetch with life := .running, trap := none }
  else s.kill w.block Cause.resumeInvalid

/-- EXIT of the active lanes (R206, R289). -/
def execExit (h : Hdr) (s : State) : Out :=
  issue s h fun c => .next (s.exitFrom c.wi (((c.go s).step12 c.isB)) c.act)

end Sys2Proof.Machine
end

