-- ==== Sys2Proof/Machine/Flags.lean ====
section
/-! DEFINITION. Integer results, comparisons and the flags they give: the arithmetic of R251-R264 on 32-bit words, every
result computed exactly and then reduced or clamped. -/
namespace Sys2Proof.Machine

/-! ## Elements -/

/-- Whether a TYPE reads its elements as signed (R221). -/
def Ty.signed : Ty → Bool
  | .i32 | .i16x2 | .i8 | .i16 => true
  | _ => false

/-- Whether a TYPE has two 16-bit elements. -/
def Ty.two : Ty → Bool
  | .i16x2 | .n16x2 | .h2 | .b2 => true
  | _ => false

/-- A pattern of `n` bits as the number it stands for. -/
def elemVal (sg : Bool) (n : Nat) (v : Nat) : Int :=
  if sg && decide (2 ^ (n - 1) ≤ v) then (v : Int) - 2 ^ n else v

/-- Clamp to the range of an `n`-bit element (R251). -/
def clampElem (sg : Bool) (n : Nat) (x : Int) : Int :=
  if sg then max (-(2 ^ (n - 1))) (min x (2 ^ (n - 1) - 1)) else max 0 (min x (2 ^ n - 1))

/-- An exact result as `n` bits: reduced modulo 2^n, or clamped first (R251). -/
def packElem (sg sat : Bool) (n : Nat) (x : Int) : Nat :=
  ((if sat then clampElem sg n x else x) % 2 ^ n).toNat

/-- Apply an exact operation to each element of some words: one element of 32 bits, or two of 16 (R251). -/
def elemOp (ty : Ty) (sat : Bool) (f : List Int → Int) (ws : List Word) : Word :=
  if Ty.two ty then
    let part := fun sh => packElem (Ty.signed ty) sat 16 (f (ws.map fun w => elemVal (Ty.signed ty) 16 (w.toNat / 2 ^ sh % 65536)))
    .ofNat 32 (part 0 + 65536 * part 16)
  else .ofNat 32 (packElem (Ty.signed ty) sat 32 (f (ws.map fun w => elemVal (Ty.signed ty) 32 w.toNat)))

/-- Operand `i` of an exact operation. -/
def arg (xs : List Int) (i : Nat) : Int := xs.getD i 0

/-- Bits [63:32] of the product (R251). -/
def mulHigh (sg : Bool) (a b : Word) : Word :=
  .ofInt 32 (elemVal sg 32 a.toNat * elemVal sg 32 b.toNat / 2 ^ 32)

/-- The sum and the carry of IADDC (R252). -/
def addCarry (sub : Bool) (a b : Word) (c : Bool) : Word × Bool :=
  let s := a.toNat + (if sub then ~~~ b else b).toNat + c.toNat
  (.ofNat 32 s, decide (2 ^ 32 ≤ s))

/-- `IMAD64`: the product of two words and a 64-bit sum (R253). -/
def mulAdd64 (sg : Bool) (a b : Word) (c : DWord) : DWord :=
  .ofInt 64 (elemVal sg 32 a.toNat * elemVal sg 32 b.toNat + c.toNat)

/-- The two words of a 64-bit result, low word first (R217). -/
def words64 (v : DWord) : List Word := [v.setWidth 32, (v >>> 32).setWidth 32]

/-- The outcome of an ordered comparison (R254). -/
def cmpOrd (c : Cmp) (lt eq : Bool) : Bool :=
  match c with
  | .eq => eq
  | .ne => !eq
  | .lt => lt
  | .le => lt || eq
  | .gt => !lt && !eq
  | .ge => !lt
  | .num | .nan => false

/-- ICMP on two words (R254). -/
def icmpVal (sg : Bool) (c : Cmp) (a b : Word) : Bool :=
  let x := elemVal sg 32 a.toNat
  let y := elemVal sg 32 b.toNat
  cmpOrd c (decide (x < y)) (decide (x = y))

/-- A truth value for a destination that is no flag (R254); its bit 0 is what a flag receives. -/
def truth (b : Bool) : Word := if b then 0xFFFFFFFF else 0

/-- The sum of IDOT4 (R256). -/
def dot4 (sg : Bool) (a b c : Word) : Int :=
  let byte := fun (w : Word) (i : Nat) => elemVal sg 8 (w.toNat / 2 ^ (8 * i) % 256)
  elemVal sg 32 c.toNat + (List.range 4).foldl (fun s i => s + byte a i * byte b i) 0

/-! ## Shifts and bit fields -/

def shlVal (a b : Word) : Word := if b.toNat < 32 then a <<< b.toNat else 0
def shrVal (a b : Word) : Word := if b.toNat < 32 then a >>> b.toNat else 0
/-- SAR (R258). -/
def sarVal (a b : Word) : Word :=
  if b.toNat < 32 then a.sshiftRight b.toNat else if a.getLsbD 31 then 0xFFFFFFFF else 0
def rotlVal (a b : Word) : Word := a.rotateLeft (b.toNat % 32)
/-- FSHL and FSHR (R259). -/
def fshlVal (a b c : Word) : Word :=
  let n := c.toNat % 32
  if n = 0 then a else (a <<< n) ||| (b >>> (32 - n))
def fshrVal (a b c : Word) : Word :=
  let n := c.toNat % 32
  if n = 0 then b else (b >>> n) ||| (a <<< (32 - n))

/-- BFX (R261). -/
def bfxVal (sg : Bool) (a b : Word) : Word :=
  let pos := b.toNat % 256
  let len := min (b.toNat / 256 % 256) 32
  if len = 0 then 0
  else
    let f := (elemVal sg 32 a.toNat / 2 ^ pos) % 2 ^ len
    .ofInt 32 (elemVal sg len f.toNat)

/-- BFI (R261). -/
def bfiVal (a b c : Word) : Word :=
  let pos := b.toNat % 256
  let len := min (b.toNat / 256 % 256) 32
  let mask : Word := .ofNat 32 ((2 ^ len - 1) * 2 ^ pos)
  (c &&& ~~~ mask) ||| (.ofNat 32 (a.toNat * 2 ^ pos) &&& mask)

/-- Build a word from its bits. -/
def bitsWord (f : Nat → Bool) : Word := maskOf f

def clzVal (a : Word) : Word := .ofNat 32 (if a = 0 then 32 else 31 - Nat.log2 a.toNat)
/-- CTZ: the least set bit, 32 for 0 (R262). -/
def ctzVal (a : Word) : Word := .ofNat 32 (((List.range 32).find? fun i => a.getLsbD i).getD 32)
def popcVal (a : Word) : Word := .ofNat 32 ((List.range 32).countP fun i => a.getLsbD i)
def brevVal (a : Word) : Word := bitsWord fun i => a.getLsbD (31 - i)
/-- BILV and BDIL (R263). -/
def bilvVal (a b : Word) : Word := bitsWord fun i => if i % 2 = 0 then a.getLsbD (i / 2) else b.getLsbD (i / 2)
def bdilVal (a : Word) : Word := bitsWord fun i => if i < 16 then a.getLsbD (2 * i) else a.getLsbD (2 * (i - 16) + 1)

/-- Byte `i` of a word. -/
def byteOf (w : Word) (i : Nat) : Nat := w.toNat / 2 ^ (8 * i) % 256

/-- PRMT (R264). -/
def prmtVal (a b c : Word) : Word :=
  let src := fun s => if s < 4 then byteOf a s else byteOf b (s - 4)
  .ofNat 32 ((List.range 4).foldl (fun acc i =>
    let nib := c.toNat / 2 ^ (4 * i) % 16
    let v := src (nib % 8)
    acc + (if nib < 8 then v else if 128 ≤ v then 255 else 0) * 2 ^ (8 * i)) 0)

end Sys2Proof.Machine
end

