-- ==== Sys2Proof/Machine/System.lean ====
section
/-! DEFINITION. The instructions of groups 0x0 and 0x2: traps, special registers, new code, the Ferry drain, device-side
launch, waits and barriers (R225, R280-R282, R289-R305). -/
namespace Sys2Proof.Machine

/-- Some lane of the instruction is active. -/
def Ctx.anyActive (c : Ctx) : Bool := c.act != 0

/-- A check made only when a lane is active (R397, from level 8 on). -/
def Ctx.whenActive (c : Ctx) (k : Check) : Check := if c.anyActive then k else none

/-! ## Group 0x0 -/

/-- NOP (R289). -/
def execNop (h : Hdr) (s : State) : Out := issue s h fun c => .next (s.retire c c.w none none)

/-- YIELD: with an active lane the wave counts as the youngest until it next issues (R282, R289, R216). -/
def execYield (h : Hdr) (s : State) : Out :=
  issue s h fun c => .next ((s.retire c c.w none none).updWave c.wi fun w => { w with young := c.anyActive || h.hint.yield })

/-- TRAP: USER_TRAP with its code when a lane is active (R299). -/
def execTrap (h : Hdr) (code : BitVec 16) (s : State) : Out :=
  issue s h fun c =>
    guardTraps s c [c.whenActive (some (Cause.userTrap, c.act, code.setWidth 64))] (.next (s.retire c c.w none none))

/-- BKPT: BREAKPOINT whatever lanes are active (R299). -/
def execBkpt (h : Hdr) (code : BitVec 16) (s : State) : Out :=
  issue s h fun c => trap s c Cause.breakpoint c.act (code.setWidth 64)

/-- WAVEPOS (R153). -/
def Ctx.wavepos (c : Ctx) : Nat :=
  (if c.b.retreq then 2 ^ 16 else 0) + recStage c.g.record * 2 ^ 13
    + (if c.w.spawned then 1 else c.w.role.val * 2 ^ 11 + c.w.num * 2 ^ 6 + c.w.ridx * 2)

/-- GRIDDIM, BLKPOS and GANGPOS (R153, R167). -/
def Ctx.griddim (c : Ctx) : Nat :=
  if recKind c.g.record = 2 then 65535 * 2 ^ 32 + 2 ^ 16 + 1
  else recGx c.g.record * 2 ^ 32 + recGy c.g.record * 2 ^ 16 + recGz c.g.record
def Ctx.blkpos (c : Ctx) : Nat := if c.w.spawned then 0 else c.b.x * 2 ^ 32 + c.b.y * 2 ^ 16 + c.b.z
def Ctx.gangpos (c : Ctx) : Nat :=
  if c.w.spawned then 0
  else c.b.x / recGw c.g.record * 2 ^ 32 + c.b.y / recGh c.g.record * 2 ^ 16
      + (c.b.y % recGh c.g.record * recGw c.g.record + c.b.x % recGw c.g.record) * 2 ^ 4

/-- HWID (R302). -/
def Ctx.hwid (c : Ctx) : Nat :=
  dieOf c.b.core * 2 ^ 16 + clusterOf c.b.core % 5 * 2 ^ 13 + c.b.core % 4 * 2 ^ 11 + c.w.part.val * 2 ^ 6
    + c.w.wslot.val * 2 ^ 4 + c.b.bslot.val * 2 ^ 2

/-- The block whose tags a wave's TAGS, TPEND and TERR are: its own; for a handler, which issues no engine operation, that of the wave it
handles, whose TERR it may clear (R137, R140; DESIGN CHOICE, log entry 31). -/
def State.tagBlock (s : State) (c : Ctx) : Nat :=
  if c.b.svc then match (s.svcAt (clusterOf c.b.core)).handled with
    | some wi => (s.wave wi).block
    | none => c.bi
  else c.bi

/-- The special registers of R301. -/
def Ctx.sreg (s : State) (c : Ctx) (num : Byte) : DWord :=
  match num.toNat with
  | 0x00 => .ofNat 64 c.griddim
  | 0x01 => .ofNat 64 c.blkpos
  | 0x02 => .ofNat 64 c.gangpos
  | 0x03 => .ofNat 64 c.wavepos
  | 0x08 => (if c.b.svc then s.block (s.tagBlock c) else c.b).tags
  | 0x09 => (if c.b.svc then s.block (s.tagBlock c) else c.b).tpend
  | 0x0A => (if c.b.svc then s.block (s.tagBlock c) else c.b).terr
  | 0x10 => .ofNat 64 (winstat s c.wi c.w)
  | 0x11 => .ofNat 64 (wstatus c.w)
  | 0x18 => .ofNat 64 s.clk
  | 0x19 => c.mask ++ c.act
  | 0x1A => .ofNat 64 c.hwid
  | _ => 0

/-- SRD: once for a K pair, else in active lanes (R300, R282). -/
def execSrd (h : Hdr) (num : Byte) (d : Operand) (s : State) : Out :=
  issue s h fun c =>
    guardTraps s c [c.regCheck [(d, 2)] []]
      (.next (s.retire c (c.w.writePlain c.act d fun _ => words64 (c.sreg s num)) none none))

/-- SWR to the W1C registers: TAGS, TERR and WSTATUS (R137, R181, R300). -/
def execSwr (h : Hdr) (num : Byte) (a : Operand) (s : State) : Out :=
  issue s h fun c =>
    let v := c.w.read64 a 0
    guardTraps s c [c.regCheck [] [(a, 2)]]
      (if !c.anyActive then .next (s.retire c c.w (some a) none)
       else match num.toNat with
        | 0x08 => .next ((s.retire c c.w (some a) none).updBlock (s.tagBlock c) fun b => { b with tags := b.tags &&& ~~~ v })
        | 0x0A => .next ((s.retire c c.w (some a) none).updBlock (s.tagBlock c) fun b => { b with terr := b.terr &&& ~~~ v })
        | 0x11 => .next (s.retire c
            { c.w with deriv := c.w.deriv && !v.getLsbD 1, pwoob := c.w.pwoob && !v.getLsbD 0 } (some a) none)
        | _ => .next (s.retire c c.w (some a) none))

/-- The cores of a scope around a core (R303). -/
def scopeCores (sc : Scope) (core : Nat) : List Nat :=
  match sc with
  | .wave | .block => [core]
  | .cluster => span (core / 4 * 4) 4
  | _ => allCores

/-- ICINV: every instruction-cache line of the cores in scope goes (R303), and in a handler those of its service core. -/
def execIcinv (h : Hdr) (sc : Scope) (s : State) : Out :=
  issue s h fun c =>
    let s1 := s.retire c c.w none none
    .next (if c.anyActive then ((if c.b.svc then [160 + clusterOf c.b.core] else []) ++ scopeCores sc c.b.core).foldl (fun s k => s.updCore k fun t => { t with icache := [], codeFrom := s.codeHeld.length }) s1 else s1)

/-- Spills, pushes, pops and refills of a wave that are not performed (R304). -/
def State.ferryBusy (s : State) (wi : Nat) : Bool :=
  let w := s.wave wi
  w.refilling || (s.core (s.block w.block).core).jobsOf wi != []

/-- WSYNC: wait until the wave's Ferry work is performed (R304). -/
def execWsync (h : Hdr) (s : State) : Out :=
  issue s h fun c => .next (if (c.anyActive || c.waiting) && s.ferryBusy c.wi then s.waits c else s.retire c c.w none none)

/-- The launch queue state of a VM. -/
def State.lqOf (s : State) (vm : Nat) : LqSt := Sparse.get {} s.lq vm
def State.setLq (s : State) (vm : Nat) (q : LqSt) : State := { s with lq := Sparse.set {} s.lq vm q }

/-- Entries of the device queue (R383). -/
def LqSt.devCount (q : LqSt) : Nat := q.subs.countP fun e => match e with
  | .dev .. => true
  | .host => false

/-- LNCH (R305, R383): a release at device scope, one entry submitted, its status written. -/
def execLnch (h : Hdr) (d a : Operand) (s : State) : Out :=
  issue s h fun c =>
    let va := c.w.read64 a 0
    guardTraps s c
      [c.regCheck [(d, 1)] [(a, 2)],
       c.whenActive (if bits va 63 56 != 0 || bits va 5 0 != 0 then some (Cause.badAddress, c.act, va) else none)]
      (if !c.anyActive then .next (s.retire c c.w (some a) none)
       else
        let s1 := s.release c.b.core c.b.cls.val .device
        let q := s1.lqOf c.g.vm
        let status : Nat := if !q.dev then 2 else if 64 ≤ q.devCount then 1 else 0
        let s2 := if status = 0 then s1.setLq c.g.vm { q with subs := q.subs ++ [.dev va c.g.asid] } else s1
        .next (s2.retire c (c.w.writePlain c.act d fun _ => [.ofNat 32 status]) (some a) none))

/-! ## Group 0x2: waits -/

/-- WAITC: wait until every counter is at or below its limit (R225). -/
def execWaitc (h : Hdr) (ld st cp tl : BitVec 6) (s : State) : Out :=
  issue s h fun c =>
    let ok := decide (c.w.ldc ≤ ld.toNat) && decide (c.w.stc ≤ st.toNat) && decide (c.w.cpc ≤ cp.toNat)
      && decide (c.w.tlc ≤ tl.toNat)
    .next (if (c.anyActive || c.waiting) && !ok then s.waits c else s.retire c c.w none none)

/-- The lowest set bit of a 64-bit mask. -/
def lowestBit (v : DWord) : Nat := ((List.range 64).find? fun i => v.getLsbD i).getD 64

/-- TWAIT (R290, R291): wait for the tags of the mask, which is read once, when the instruction issues; an error among the ready ones traps; the writes of the ready ones are
acquired at block scope, which acts on no cache. -/
def execTwait (h : Hdr) (any : Bool) (a : Operand) (s : State) : Out :=
  issue s h fun c =>
    let kept := (c.w.slot c.isB).held
    let m := kept.getD (c.w.read64 a 0)
    let ok := if any then (m &&& c.b.tags) != 0 || (m &&& (c.b.tags ||| c.b.tpend)) == 0 else (m &&& c.b.tpend) == 0
    guardTraps s c [if kept.isSome then none else c.regCheck [] [(a, 2)]]
      (if !c.anyActive && !c.waiting then .next (s.retire c c.w (some a) none)
       else if !ok then .next (s.waits c (some m))
       else
        let bad := m &&& c.b.tags &&& c.b.terr
        guardTraps s c [if bad = 0 then none else some (Cause.engineError, c.act, .ofNat 64 (lowestBit bad))]
          (.next (s.retire c c.w (some a) none)))

/-- TFIRST (R292, R282): the lowest ready tag of the mask, or ones; a ready tag with an error traps. -/
def execTfirst (h : Hdr) (d a : Operand) (s : State) : Out :=
  issue s h fun c =>
    let ready := c.w.read64 a 0 &&& c.b.tags
    let t := lowestBit ready
    let v : Word := if ready = 0 then 0xFFFFFFFF else .ofNat 32 t
    guardTraps s c
      [c.regCheck [(d, 1)] [(a, 2)],
       if ready != 0 && c.b.terr.getLsbD t && c.anyActive then some (Cause.engineError, c.act, .ofNat 64 t) else none]
      (.next (s.retire c (c.w.writePlain c.act d fun _ => [v]) (some a) none))

/-! ## Barriers (R293-R298) -/

/-- The scope of a barrier's level (R132). -/
def BarLevel.scope : BarLevel → Scope
  | .bb => .block
  | .cb => .cluster
  | .gb => .device

/-- BARRIER_MEMBER (R294, R165): in a sailed wave, on a barrier that is not in use, or for an arrival by a role that is no
member. -/
def Ctx.memberCheck (s : State) (c : Ctx) (lvl : BarLevel) (n : BitVec 4) (arrives : Bool) : Check :=
  let b := (s.barriers c.bi lvl).getD n.toNat {}
  if c.w.spawned || b.expect == 0 || (arrives && !b.member c.w.role) then some (Cause.barrierMember, c.act, 0) else none

/-- The phase of a barrier. -/
def State.phaseOf (s : State) (bi : Nat) (lvl : BarLevel) (n : BitVec 4) : Bool :=
  ((s.barriers bi lvl).getD n.toNat {}).phase

/-- The completions of a barrier. -/
def State.turnsOf (s : State) (bi : Nat) (lvl : BarLevel) (n : BitVec 4) : Nat := ((s.barriers bi lvl).getD n.toNat {}).turns

/-- The end of a wait on a barrier: the acquire of its scope, then the next instruction (R295). -/
def State.barDone (s : State) (c : Ctx) (lvl : BarLevel) (a : Option Operand) : State :=
  (s.retire c c.w a none).acquire c.b.core (BarLevel.scope lvl)

/-- A wave that arrives on a raster barrier ends its emission and drops its incomplete triple (R365, R370). -/
def State.emissionEnds (s : State) (c : Ctx) (lvl : BarLevel) (n : BitVec 4) : State :=
  match lvl with
  | .gb => if ((s.barriers c.bi lvl).getD n.toNat {}).raster then
      s.updWave c.wi fun w => { w with triple := [], emitted := true } else s
  | _ => s

/-- BAR.arrive (R294, R295). -/
def execBarArrive (h : Hdr) (lvl : BarLevel) (n : BitVec 4) (s : State) : Out :=
  issue s h fun c =>
    guardTraps s c [c.convCheck, c.memberCheck s lvl n true]
      (.next (if !c.anyActive then s.retire c c.w none none
        else (((s.retire c c.w none none).release c.b.core c.b.cls.val (BarLevel.scope lvl)).arrive c.bi lvl n.toNat).emissionEnds
          c lvl n))

/-- BAR.wait (R294, R295): the phase awaited is read once; from then on the wait ends with the barrier's next completion. -/
def execBarWait (h : Hdr) (lvl : BarLevel) (n : BitVec 4) (a : Operand) (s : State) : Out :=
  issue s h fun c =>
    let now := BitVec.ofNat 64 (s.turnsOf c.bi lvl n)
    match (c.w.slot c.isB).held with
    | some t => .next (if now != t then s.barDone c lvl (some a) else s.waits c)
    | none =>
      guardTraps s c [c.regCheck [] [(a, 1)], c.memberCheck s lvl n false]
        (.next (if !c.anyActive then s.retire c c.w (some a) none
          else if s.phaseOf c.bi lvl n != (c.w.read a 0).getLsbD 0 then s.barDone c lvl (some a)
          else s.waits c (some now)))

/-- BAR.sync (R294, R295, R298): the arrival once, then the wait for the other phase; a slot that has arrived keeps the
phase it awaits. -/
def execBarSync (h : Hdr) (lvl : BarLevel) (n : BitVec 4) (s : State) : Out :=
  issue s h fun c =>
    guardTraps s c [c.convCheck, c.memberCheck s lvl n true]
      (.next (if !c.anyActive then s.retire c c.w none none
        else match (c.w.slot c.isB).sync with
        | some p => if s.turnsOf c.bi lvl n != p then s.barDone c lvl none else s.waits c
        | none =>
          let p := s.turnsOf c.bi lvl n
          let s1 := (s.release c.b.core c.b.cls.val (BarLevel.scope lvl)).arrive c.bi lvl n.toNat
          .emissionEnds (if s1.turnsOf c.bi lvl n != p then s1.barDone c lvl none
            else s1.setWave c.wi (c.w.setSlot c.isB { c.held none with sync := some p })) c lvl n))

/-- BARPH (R296): E, COUNT and PHASE as they stand. -/
def execBarph (h : Hdr) (lvl : BarLevel) (n : BitVec 4) (d : Operand) (s : State) : Out :=
  issue s h fun c =>
    let b := (s.barriers c.bi lvl).getD n.toNat {}
    guardTraps s c [c.regCheck [(d, 1)] [], c.memberCheck s lvl n false]
      (.next (s.retire c (c.w.writePlain c.act d fun _ => [barrierWord b]) none none))

end Sys2Proof.Machine
end

