-- ==== Sys2Proof/Machine/Engine.lean ====
section
/-! DEFINITION. Engine operations (R135-R147): issue with tags and range locks, the accesses an engine makes, completion,
failure and restart.  An operation acts part by part between its restart points (R147; DEDUCED, log entry 4). -/
namespace Sys2Proof.Machine

/-! ## Engines (R135) -/

/-- Operations in flight that satisfy `p`. -/
def State.inFlight (s : State) (p : EngOp → Bool) : Nat := s.ops.countP fun o => o.life == .running && !o.saved && p o

/-- The engine kinds. -/
inductive EngKind where
  | copy | pipe (n : Nat) | matLoad | matStore | ctu | ray | mat | coll
  deriving DecidableEq, Repr

def isCopy (e : Nat) : Bool := decide (1 ≤ e) && decide (e ≤ 4)
def isPipe (e : Nat) : Bool := decide (8 ≤ e) && decide (e ≤ 15)

/-- The least loaded of some engines of a core, the lowest number on a tie. -/
def State.leastLoaded (s : State) (core lo n : Nat) : Nat :=
  let load := fun e => s.inFlight fun o => o.engine == e && o.core == core
  (span lo n).foldl (fun best e => if load e < load best then e else best) lo

/-- The engine an operation of a kind goes to. -/
def State.engineOf (s : State) (core : Nat) : EngKind → Nat
  | .copy => s.leastLoaded core 1 4
  | .pipe n => 8 + n
  | .matLoad => 16
  | .matStore => 17
  | .ctu => 18
  | .ray => 19
  | .mat => 20
  | .coll => 28

/-- A place in flight is free (R135). -/
def State.engineFree (s : State) (core bi : Nat) : EngKind → Bool
  | .copy => decide (s.inFlight (fun o => isCopy o.engine && o.core == core) < 32)
  | .pipe n => decide (s.inFlight (fun o => o.engine == 8 + n && o.core == core) < 2)
  | .matLoad | .matStore =>
    decide (s.inFlight (fun o => (o.engine == 16 || o.engine == 17) && clusterOf o.core == clusterOf core) < 16)
  | .ctu => decide (s.inFlight (fun o => o.engine == 18 && clusterOf o.core == clusterOf core) < 8)
  | .ray => decide (s.inFlight (fun o => o.engine == 19 && o.core == core) < 16)
  | .mat => decide (s.inFlight (fun o => o.engine == 20 && o.core == core) < 16)
  | .coll => decide (s.inFlight (fun o => o.engine == 28 && o.block == bi) < 8)

/-! ## Range locks (R141-R144) -/

/-- A range of an operation on a core: the block that owns it when it lies in a scratchpad. -/
structure EngRange where
  core : Nat
  owner : Nat
  dst : Bool
  scr : Bool
  base : Nat
  size : Nat
  deriving DecidableEq, Repr

/-- Free entries of a core's table of 96. -/
def CoreSt.freeLocks (c : CoreSt) : Nat := 96 - c.locks.countP Option.isSome

/-- Put an entry in the first free place. -/
def putLock : List (Option Lock) → Lock → List (Option Lock)
  | [], k => [some k]
  | none :: t, k => some k :: t
  | some x :: t, k => some x :: putLock t k

/-- The ranges that register (R141: an empty one does not). -/
def realRanges (rs : List EngRange) : List EngRange := rs.filter fun r => r.size != 0

/-- Every core has room for the entries of an operation (R136). -/
def State.locksFit (s : State) (rs : List EngRange) : Bool :=
  ((rs.map EngRange.core).eraseDups).all fun k =>
    decide ((rs.countP fun r => r.core == k) ≤ (s.core k).freeLocks)

/-- The first byte of a range as its entry names it (R142). -/
def State.rangeBase (s : State) (r : EngRange) : Nat := (s.block r.owner).lockAddr r.scr r.base

/-- The entries that a range of an issuing instruction meets on its core (R143). -/
def State.rangeHits (s : State) (vm : Nat) (asid : BitVec 16) (r : EngRange) : List (Nat × Lock) :=
  lockHits (s.core r.core).locks vm asid r.dst (spaceOf r.scr r.base) (s.rangeBase r) r.size

/-- Register the ranges of operation `i`. -/
def State.addLocks (s : State) (vm : Nat) (asid : BitVec 16) (tag i : Nat) (rs : List EngRange) : State :=
  rs.foldl (fun s r =>
    let lo := s.rangeBase r
    let k : Lock := ⟨r.dst, spaceOf r.scr r.base, r.owner, tag, vm, asid, lo / 16, (lo + r.size - 1) / 16, i⟩
    s.updCore r.core fun c => { c with locks := putLock c.locks k }) s

/-- Drop the trailing free places of a table. -/
def trimLocks (ls : List (Option Lock)) : List (Option Lock) := (ls.reverse.dropWhile Option.isNone).reverse

/-- The number under which the range of a TABLD is registered while its slot waits for the table's translation (R361). -/
def heldRange (wi : Nat) (isB : Bool) : Nat := 2 ^ 40 + 2 * wi + isB.toNat

/-- Release every entry of an operation. -/
def State.dropLocks (s : State) (i : Nat) : State :=
  { s with cores := (s.cores.map fun kc =>
      (kc.1, { kc.2 with locks := trimLocks (kc.2.locks.map fun e => match e with
        | some k => if k.op == i then none else some k
        | none => none) })).filter fun kc => kc.2 != {} }

/-! ## Issue (R136-R138, R317) -/

/-- What an engine instruction asks for. -/
structure EngReq where
  kind : EngKind
  ctr : Ctr
  tag : Nat
  instr : Instr
  ranges : List EngRange
  /-- The lanes that compute each range; all active ones where the list ends (R143). -/
  lanes : List LaneMask := []
  vals : List DWord := []
  ents : List (BitVec 256) := []
  recv : List (Nat × Nat) := []
  order : List Nat := []
  /-- The collective group and the die, of a COLL. -/
  coll : Option (Nat × Nat) := none
  /-- The operation ends at issue: it has nothing to do (R141). -/
  empty : Bool := false
  /-- The instruction holds no tag (R339). -/
  notag : Bool := false
  /-- OPK, bands and least clk of a pass of the matrix engine (R343, R346, R347). -/
  post : Option (Nat × Nat × Nat) := none
  deriving DecidableEq, Repr

/-- TAG_BUSY (R138). -/
def Ctx.tagCheck (c : Ctx) (notag : Bool) (tag : Nat) : Check :=
  if !notag && c.b.tpend.getLsbD tag then some (Cause.tagBusy, c.act, 0) else none

/-- A tag becomes pending; its READY and TERR bits are cleared. -/
def Block.pend (b : Block) (tag : Nat) : Block :=
  let m : DWord := 1#64 <<< tag
  { b with tags := b.tags &&& ~~~ m, terr := b.terr &&& ~~~ m, tpend := b.tpend ||| m,
           tagErr := b.tagErr.filter fun e => e.1 != tag }

/-- A tag becomes ready. -/
def Block.ready (b : Block) (tag : Nat) (err : Bool) : Block :=
  let m : DWord := 1#64 <<< tag
  { b with tags := b.tags ||| m, tpend := b.tpend &&& ~~~ m, terr := if err then b.terr ||| m else b.terr }

/-- RANGE_LOCK of an issuing engine instruction (R143): the lanes whose ranges match, and the first matching entry, on the first of
their cores where several are checked, which DETAIL [17:16] then names (R141; DESIGN CHOICE, log entry 52). -/
def Ctx.rangeCheck (s : State) (c : Ctx) (rs : List EngRange) (lanes : List LaneMask := []) (cores : Bool := false) : Check :=
  let bad := (rs.zipIdx.filter fun x => x.1.size != 0 && s.rangeHits c.g.vm c.g.asid x.1 != [])
  match bad with
  | [] => none
  | x :: _ =>
    let there := bad.filter fun y => y.1.core == x.1.core
    (firstHit (there.flatMap fun y => s.rangeHits c.g.vm c.g.asid y.1)).map fun h =>
      (Cause.rangeLock, bad.foldl (fun m y => m ||| lanes.getD y.2 c.act) 0,
        .ofNat 64 (h.1 * 256 + h.2.tag + (if cores then x.1.core % 4 * 2 ^ 16 else 0)))

/-- The reservation table of a cluster (R343). -/
def State.resvOf (s : State) (cl : Nat) : List Resv := Sparse.get [] s.resv cl
def State.setResv (s : State) (cl : Nat) (rs : List Resv) : State := { s with resv := Sparse.set [] s.resv cl rs }

/-- Post operation `i` to its cluster's reservation table (R343). -/
def State.post (s : State) (cl i cls opk nband cost rowprog : Nat) : State :=
  let rs := s.resvOf cl
  let place := ((List.range 16).find? fun k => !rs.any fun r => r.place == k).getD 16
  let seq := Sparse.get 0 s.postSeq cl
  { s.setResv cl (rs ++ [⟨place, i, opk, seq, cls, s.clk, false, none, false, rowprog, nband, cost⟩]) with
    postSeq := Sparse.set 0 s.postSeq cl (seq + 1) }

/-- Step 3 of R136: the ranges are registered, the tag is pending, the operation is in its engine; an operation with
nothing to do makes its tag ready at once. -/
def State.enterEngine (s : State) (c : Ctx) (r : EngReq) : State :=
  let i := s.ops.length
  if r.empty then s.updBlock c.bi fun b => (b.pend r.tag).ready r.tag false
  else
    let o : EngOp :=
      { engine := s.engineOf c.b.core r.kind, instr := r.instr, block := c.bi, wave := c.wi, core := c.b.core,
        tag := if r.notag then none else some r.tag, vals := r.vals, ents := r.ents, recv := r.recv, order := r.order, window := c.w.spec,
        ranges := (realRanges r.ranges).map fun x => ⟨x.dst, spaceOf x.scr x.base, x.base, x.size⟩, since := s.clk }
    let s0 := match r.coll with
      | some (g, die) =>
        let n := Sparse.get 0 s.coll.counts (8 * g + die) + 1
        { s with coll := { s.coll with counts := Sparse.set 0 s.coll.counts (8 * g + die) n } }
      | none => s
    let pos := match r.coll with
      | some (g, die) => Sparse.get 0 s.coll.counts (8 * g + die)
      | none => 0
    let s1 := { s0 with ops := s.ops ++ [{ o with pair := pos }] }
    let s2 := match r.post with
      | some (opk, nband, cost) => s1.post (clusterOf c.b.core) i c.b.cls.val opk nband cost 0
      | none => s1
    (s2.addLocks c.g.vm c.g.asid r.tag i (realRanges r.ranges)).updBlock c.bi fun b => if r.notag then b else b.pend r.tag

/-- The wave of an engine instruction, counted until its operation is done. -/
def Ctx.engCounted (s : State) (c : Ctx) (r : EngReq) : Wave :=
  if r.empty then c.w else c.w.count c.act { ctr := r.ctr, lanes := c.act, op := some s.ops.length }

/-- Issue an engine instruction: `pre` are its register checks, `early` its checks before TAG_BUSY and `checks` those after
it; the request is used once they pass (R136, R307, R317, R341), and `fin` adds what the instruction does beside it. -/
def engineIssue (s : State) (c : Ctx) (pre checks : List Check) (r : EngReq) (a b : Option Operand)
    (fin : State → State := id) (early : List Check := []) : Out :=
  counted s c r.ctr <|
    guardTraps s c pre <|
      if !c.anyActive then .next (s.retire c c.w a b)
      else guardTraps s c early <|
        if !s.locksFit (realRanges r.ranges) || !s.engineFree c.b.core c.bi r.kind then .next s.notReady
        else guardTraps s c (c.tagCheck r.notag r.tag :: checks ++ [c.rangeCheck s r.ranges r.lanes (r.recv != [])])
          (.next (fin ((s.enterEngine c r).retire c (c.engCounted s r) a b)))

/-! ## The accesses of an engine -/

/-- A byte that an engine writes: at a location, or in the scratchpad of a block; poisoned where the bytes it comes from are
(R146). -/
inductive Target where
  | mem (key : Nat)
  | scr (block off : Nat)
  | acc (block word : Nat)
  deriving DecidableEq, Repr

structure EngWrite where
  tgt : Target
  val : Word
  poison : Bool
  deriving DecidableEq, Repr

/-- How a part of an operation ends: with a value, with progress but no end, waiting on a fault record or a host page, or
failed. -/
inductive Eng (α : Type) where
  | ok (s : State) (x : α)
  | more (s : State)
  | fault (s : State)
  | fail (s : State) (e : TagErr)
  | wait (s : State)
  deriving DecidableEq, Repr

/-- Go on from a part that ended with a value. -/
def Eng.bind {α β : Type} (x : Eng α) (f : State → α → Eng β) : Eng β :=
  match x with
  | .ok s a => f s a
  | .more s => .more s
  | .fault s => .fault s
  | .fail s e => .fail s e
  | .wait s => .wait s

/-- The space, class and unit of an operation's accesses. -/
def State.opSpace (s : State) (o : EngOp) : Space :=
  let g := s.grid (s.block o.block).grid
  ⟨g.vm, g.asid, false, false⟩
def State.opCls (s : State) (o : EngOp) : Nat := (s.block o.block).cls.val

/-- A failed operation's record (R140). -/
def errOf (o : EngOp) (cause kind addr : Nat) : TagErr := ⟨o.engine, cause, kind, addr⟩
namespace TagCause
def memory : Nat := 1
def staleTable : Nat := 2
def landing : Nat := 3
def peer : Nat := 4
def speculation : Nat := 5
end TagCause

/-- Hold an operation on the fault record of an access (R145). -/
def State.opFault (s : State) (i : Nat) (o : EngOp) (va : Nat) (acc : Access) (kind ptepa : Nat) (sys : Bool) : State :=
  let w := s.wave o.wave
  let r := s.raiseFault o.core (s.opSpace o) va acc kind ptepa sys w.part.val w.wslot.val o.engine
  r.1.updOp i fun o => { o with fault := some r.2, faultVa := va }

/-- The locations of an engine's bytes, with the checks that end it (R92, R145, R146). -/
def State.engLocs (s : State) (i : Nat) (o : EngOp) (write : Bool) : List Nat → Eng (List Loc)
  | [] => .ok s []
  | va :: t =>
    let vm := (s.opSpace o).vm
    if !s.vaOk va then .fail s (errOf o TagCause.memory Kind.notPresent va)
    else match s.place (tlbEngine o.core o.engine) (s.opCls o) (s.opSpace o) (if write then .engWrite else .engRead) va with
      | .fault kind ptepa sys =>
        if kind = Kind.nomem && s.errorResponse (clusterOf o.core) (s.opSpace o) va then .fail s (errOf o TagCause.peer 0 va)
        else .fault (s.opFault i o va (if write then .engWrite else .engRead) kind ptepa sys)
      | .pri s' => .wait s'
      | .ok s' l =>
        if landingVa ≤ va && !s'.landingOk vm write (va - landingVa) then .fail s' (errOf o TagCause.landing 0 va)
        else if write && !windowAdmits o.window va then .fail s' (errOf o TagCause.speculation 0 va)
        else (s'.engLocs i o write t).bind fun s ls => .ok s (l :: ls)

/-- The expander an engine's read of a block goes through (R104): the core's for EXP = 10, but for the ray unit and the material evaluator; an XFM's
pipe or the cluster transform unit for EXP = 11; else the one on the way from the home. -/
def State.engExpander (s : State) (o : EngOp) (l : Loc) (b : List Byte) : Nat :=
  let own := l.cmp && !l.bypass
  if blockExp b = 2 && own && o.engine != 19 && o.engine != 20 && o.engine != 24 then expCore o.core
  else if blockExp b = 3 && own && isPipe o.engine then expPipe o.core (o.engine - 8)
  else if blockExp b = 3 && own && o.engine == 18 then expCtu (clusterOf o.core)
  else s.expHome l.key b

/-- A prefix block whose table the expander does not hold (R106). -/
def State.engStale (s : State) (o : EngOp) (l : Loc) : Bool :=
  if s.cmp.stored = [] || !isHbm l.key then false
  else
    let b := s.heldBlock l.key
    b != [] && !s.expands (s.engExpander o l b) b

/-- A byte as an engine reads it, with poison: through the engine's own expander where a block reaches it (R103, R104). -/
def State.engByte (s : State) (o : EngOp) (l : Loc) : Byte × Bool :=
  let b := if s.cmp.stored = [] || !isHbm l.key then [] else s.heldBlock l.key
  if b = [] || s.engExpander o l b = s.expHome l.key b then (s.byte l.key, s.secPoison l.key)
  else match s.expand (s.engExpander o l b) b with
    | some bs => (bs.getD (l.key % 256) 0, s.secPoison l.key)
    | none => (s.byte l.key, true)

/-- Read global bytes: the issuing core's dirty bytes of their sectors go home first (R126). -/
def State.engRead (s : State) (i : Nat) (o : EngOp) (vas : List Nat) : Eng (List (Byte × Bool)) :=
  (s.engLocs i o false vas).bind fun s ls =>
    match (vas.zip ls).find? fun x => s.engStale o x.2 with
    | some x => .fail s (errOf o TagCause.staleTable 0 x.1)
    | none =>
      let ks := ls.map Loc.key
      let t := (s.l1SendSectors o.core (s.opCls o) ks).l2TouchAll ks (s.opCls o) false
      .ok t (ls.map fun l => if s.cmp.stored = [] then (t.byte l.key, t.secPoison l.key) else t.engByte o l)

/-- Read bytes of global memory or of the block's scratchpad. -/
def State.engSource (s : State) (i : Nat) (o : EngOp) (scr : Bool) (base len : Nat) : Eng (List (Byte × Bool)) :=
  if scr then .ok s ((span base len).map (s.block o.block).scrByte) else s.engRead i o (span base len)

/-- The targets of bytes of global memory or of a block's scratchpad. -/
def State.engDest (s : State) (i : Nat) (o : EngOp) (scr : Bool) (base len : Nat) : Eng (List Target) :=
  if scr then .ok s ((span base len).map fun a => .scr o.block a)
  else (s.engLocs i o true (span base len)).bind fun s ls => .ok s (ls.map fun l => .mem l.key)

/-- Bytes written to targets. -/
def engWrites (ts : List Target) (bs : List (Byte × Bool)) : List EngWrite :=
  (ts.zip bs).map fun x => ⟨x.1, x.2.1.setWidth 32, x.2.2⟩

/-- Perform writes to memory: the issuing core's dirty bytes of their sectors, stored before the issue, go home first (R116, R126;
DEDUCED, log entry 43); sectors fed by poison are written poisoned. -/
def State.doMemWrites (s : State) (o : EngOp) (ws : List EngWrite) : State :=
  let cls := s.opCls o
  let kvs := ws.filterMap fun w => match w.tgt with
    | .mem k => some (k, w.val.setWidth 8, w.poison)
    | _ => none
  let s := (s.l1SendSectors o.core cls (kvs.map Prod.fst)).homeWrite cls (kvs.map fun x => (x.1, x.2.1))
  kvs.foldl (fun s x => if x.2.2 then s.setSecPoison x.1 true else s) s

/-- Perform one write to a scratchpad or accumulator of a block that still exists. -/
def State.doOther (s : State) (w : EngWrite) : State :=
  match w.tgt with
  | .mem _ => s
  | .scr bi o =>
    s.updBlock bi fun b =>
      { b with scratch := Sparse.set 0 b.scratch o (w.val.setWidth 8)
               scrPoison := if w.poison then Sparse.set false b.scrPoison (o / 4) true else b.scrPoison }
  | .acc bi q =>
    s.updBlock bi fun b =>
      { b with accum := Sparse.set 0 b.accum q w.val, accPoison := Sparse.set false b.accPoison q w.poison }

/-- Scratchpad words that are written whole and unpoisoned lose their poison (R70). -/
def State.cleanScr (s : State) (ws : List EngWrite) : State :=
  let offs := ws.filterMap fun w => match w.tgt with
    | .scr bi o => some (bi, o, w.poison)
    | _ => none
  if offs.all fun x => (s.block x.1).scrPoison = [] then s
  else
    ((offs.map fun x => (x.1, x.2.1 / 4)).eraseDups).foldl (fun s q =>
      if (List.range 4).all (fun j => offs.any fun x => x.1 == q.1 && x.2.1 == 4 * q.2 + j && !x.2.2) then
        s.updBlock q.1 fun b => { b with scrPoison := Sparse.set false b.scrPoison q.2 false }
      else s) s

/-! ## Completion (R139, R140) -/

/-- The locations of an operation's destination ranges that translate now. -/
def State.destKeys (s : State) (o : EngOp) : List Nat :=
  (o.ranges.filter fun r => r.dst && r.space != 2).flatMap fun r =>
    (List.range (r.size / 64 + 2)).filterMap fun j =>
      match s.place (tlbEngine o.core o.engine) (s.opCls o) (s.opSpace o) .engRead (min (r.base + 64 * j) (r.base + r.size - 1)) with
      | .ok _ l => some l.key
      | _ => none

/-- The counted entry of an operation ends. -/
def State.uncount (s : State) (wi i : Nat) : State :=
  match (s.wave wi).counted.find? fun e => e.2.op == some i with
  | some (idx, n) => s.updWave wi fun w => { w.bump (· - 1) n.ctr with counted := w.counted.filter fun e => e.1 != idx }
  | none => s

/-- Write bytes to the saved-context area of a block, where its context addresses translate (R140, R147, R394). -/
def State.writeArea (s : State) (bi core off : Nat) (bs : List Byte) (poison : Bool := false) : State :=
  let b := s.block bi
  match s.placeAll (tlbEngine core 30) b.cls.val ⟨(s.grid b.grid).vm, 0, true, false⟩ .engWrite (span (b.area + off) bs.length) with
  | .ok s' ls =>
    let ks := ls.map Loc.key
    let s' := s'.homeWrite b.cls.val (ks.zip bs)
    if poison then ks.foldl (fun s k => s.setSecPoison k true) s' else s'
  | _ => s

/-- A collective operation's writes to the scratchpad of a block that is saved go to its saved context (R147, R394). -/
def State.writeSavedScr (s : State) (o : EngOp) (ws : List EngWrite) : State :=
  ws.foldl (fun s w => match w.tgt with
    | .scr bi a => if (s.block bi).life == .saved then s.writeArea bi o.core (0x4000 + a) [w.val.setWidth 8] w.poison else s
    | _ => s) s

/-- Perform the writes of an operation. -/
def State.doWrites (s : State) (o : EngOp) (ws : List EngWrite) : State :=
  (ws.foldl State.doOther ((s.doMemWrites o ws).cleanScr ws)).writeSavedScr o ws

/-- TAGS, TPEND and TERR of a block as its saved context holds them; a saved block's change there (R147). -/
def State.writeTags (s : State) (bi core : Nat) : State :=
  let b := s.block bi
  if b.life == .saved then s.writeArea bi core 0x800 (wordsBytes [b.tags, b.tpend, b.terr]) else s

/-- The end of an operation, in one clk: the L1's valid bits over its destination are cleared, its locks released, its tag
ready; a failed one's error record is written to the block's saved-context area (R139, R140), if its address translates (DESIGN CHOICE,
log entry 52). -/
def State.finishOp (s : State) (i : Nat) (o : EngOp) (err : Option TagErr) : State :=
  let s := (s.l1Drop o.core (s.destKeys o)).dropLocks i
  let s := s.setResv (clusterOf o.core) ((s.resvOf (clusterOf o.core)).filter fun r => r.op != i)
  let s := s.updOp i fun o => { o with life := .done, fault := none, rays := [], data := [] }
  let s := s.uncount o.wave i
  match o.tag with
  | none => s
  | some t =>
    match (s.block o.block).life with
    | .killed _ => s
    | _ =>
      let s1 := s.updBlock o.block fun b =>
        let b' := b.ready t err.isSome
        match err with
        | some e => { b' with tagErr := (t, e) :: b'.tagErr.filter fun x => x.1 != t }
        | none => b'
      let s2 := match err with
        | some e => s1.writeArea o.block o.core (0xC00 + 16 * t) (wordsBytes (tagErrWords e))
        | none => s1
      s2.writeTags o.block o.core

/-- An operation that goes on: it runs, waits on no record, has not failed, and its block is not halted (R147; the
collective path goes on). -/
def State.opRuns (s : State) (o : EngOp) : Bool :=
  o.life == .running && o.fault.isNone && o.failed.isNone && !o.saved && (o.engine == 28 || !(s.block o.block).halted)

/-- A step of an operation that has to wait for a host page: only its request is new (R38). -/
def waited (s s' : State) : Out :=
  if s'.x.pri = s.x.pri then .fault .eventCannotOccur else .next { s with x := { s.x with pri := s'.x.pri } }

end Sys2Proof.Machine
end

