-- ==== Sys2Proof/Machine/Float.lean ====
section
/-! DEFINITION. The number formats (R233, R234), the one rounding rule (R235-R238), FP arithmetic (R239) and the
transcendental instructions (R240).  Every operation computes an exact number and rounds it once. -/
namespace Sys2Proof.Machine

/-! ## Numbers -/

/-- A value of a float format: NaN, an infinity, or the exact number (-1)^neg * m * 2^e. -/
inductive FNum where
  | nan
  | inf (neg : Bool)
  | fin (neg : Bool) (m : Nat) (e : Int)
  deriving DecidableEq, Repr

/-- The IEEE-like formats: mantissa bits, exponent bits, and whether all-ones exponents hold only S.1..1 as NaN (F8A). -/
structure Fmt where
  mant : Nat
  expo : Nat
  oneNan : Bool
  saturates : Bool
  canon : Nat
  deriving DecidableEq, Repr

def fp32 : Fmt := ⟨23, 8, false, false, 0x7FC00000⟩
def fp16 : Fmt := ⟨10, 5, false, false, 0x7E00⟩
def bf16 : Fmt := ⟨7, 8, false, false, 0x7FC0⟩
def f8a : Fmt := ⟨3, 4, true, true, 0x7F⟩
def f8b : Fmt := ⟨2, 5, false, true, 0x7E⟩

/-- The exponent bias. -/
def Fmt.bias (f : Fmt) : Nat := 2 ^ (f.expo - 1) - 1
/-- The exponent of the least subnormal. -/
def Fmt.emin (f : Fmt) : Int := 1 - (f.bias : Int) - f.mant
/-- The sign bit's weight. -/
def Fmt.sign (f : Fmt) : Nat := 2 ^ (f.mant + f.expo)
/-- The pattern of +infinity in the formats that have one. -/
def Fmt.infPat (f : Fmt) : Nat := (2 ^ f.expo - 1) * 2 ^ f.mant
/-- The greatest finite pattern. -/
def Fmt.maxPat (f : Fmt) : Nat := if f.oneNan then 2 ^ (f.mant + f.expo) - 2 else f.infPat - 1

/-- Read a pattern (R233). -/
def Fmt.dec (f : Fmt) (v : Nat) : FNum :=
  let neg := decide (f.sign ≤ v % (2 * f.sign))
  let p := v % f.sign
  if f.maxPat < p then if !f.oneNan && p = f.infPat then .inf neg else .nan
  else
    let ex := p / 2 ^ f.mant
    let fr := p % 2 ^ f.mant
    if ex = 0 then .fin neg fr f.emin else .fin neg (fr + 2 ^ f.mant) (f.emin + ex - 1)

/-- Round m * 2^e to a multiple of 2^q, to nearest with ties to even; the answer counts units of 2^q (R235). -/
def roundAt (m : Nat) (e q : Int) : Nat :=
  if q ≤ e then m * 2 ^ (e - q).toNat
  else
    let k := (q - e).toNat
    let n := m / 2 ^ k
    let r := m % 2 ^ k
    if 2 * r > 2 ^ k || (2 * r = 2 ^ k && n % 2 = 1) then n + 1 else n

/-- Round a number into a format (R235, R236). -/
def Fmt.enc (f : Fmt) (x : FNum) : Nat :=
  match x with
  | .nan => f.canon
  | .inf neg => (if neg then f.sign else 0) + (if f.saturates then f.maxPat else f.infPat)
  | .fin neg m e =>
    let s := if neg then f.sign else 0
    if m = 0 then s
    else
      let q := max f.emin (e + Nat.log2 m - f.mant)
      let p := (q - f.emin).toNat * 2 ^ f.mant + roundAt m e q
      s + (if f.maxPat < p then (if f.saturates then f.maxPat else f.infPat) else p)

/-! ## Exact operations (R239) -/

def FNum.isNan : FNum → Bool
  | .nan => true
  | _ => false

def FNum.neg : FNum → FNum
  | .nan => .nan
  | .inf s => .inf (!s)
  | .fin s m e => .fin (!s) m e

/-- The sign of a number that is no NaN. -/
def FNum.sgn : FNum → Bool
  | .nan => false
  | .inf s => s
  | .fin s _ _ => s

/-- The signed integer of a finite number at exponent `q`, which is no greater than its own. -/
def intAt (s : Bool) (m : Nat) (e q : Int) : Int :=
  let v : Int := (m * 2 ^ (e - q).toNat : Nat)
  if s then -v else v

/-- An exact signed number at exponent `q`; a zero takes the sign given. -/
def ofIntAt (v : Int) (q : Int) (zs : Bool) : FNum :=
  if v = 0 then .fin zs 0 q else .fin (decide (v < 0)) v.natAbs q

def FNum.add (a b : FNum) : FNum :=
  match a, b with
  | .nan, _ => .nan
  | _, .nan => .nan
  | .inf s, .inf t => if s = t then .inf s else .nan
  | .inf s, _ => .inf s
  | _, .inf t => .inf t
  | .fin s m e, .fin t n g => ofIntAt (intAt s m e (min e g) + intAt t n g (min e g)) (min e g) (s && t)

def FNum.mul (a b : FNum) : FNum :=
  match a, b with
  | .nan, _ => .nan
  | _, .nan => .nan
  | .inf s, .inf t => .inf (s != t)
  | .inf s, .fin t n _ => if n = 0 then .nan else .inf (s != t)
  | .fin s m _, .inf t => if m = 0 then .nan else .inf (s != t)
  | .fin s m e, .fin t n g => .fin (s != t) (m * n) (e + g)

/-- Exact order of two numbers: (less, equal), -0 equal to +0; with a NaN neither. -/
def FNum.cmp (a b : FNum) : Bool × Bool :=
  match a, b with
  | .nan, _ | _, .nan => (false, false)
  | .inf s, .inf t => (s && !t, s = t)
  | .inf s, _ => (s, false)
  | _, .inf t => (!t, false)
  | .fin s m e, .fin t n g =>
    let x := intAt s m e (min e g)
    let y := intAt t n g (min e g)
    (decide (x < y), decide (x = y))

/-- Order with -0 below +0 (R239). -/
def FNum.below (a b : FNum) : Bool :=
  let c := a.cmp b
  c.1 || (c.2 && a.sgn && !b.sgn)

/-- FMIN and FMAX on patterns: the non-NaN operand when one is NaN (R239). -/
def Fmt.minPat (f : Fmt) (greater : Bool) (a b : Nat) : Nat :=
  match (f.dec a).isNan, (f.dec b).isNan with
  | true, true => f.canon
  | true, false => b
  | false, true => a
  | false, false => if ((f.dec a).below (f.dec b)) != greater then a else b

/-! ## Modifiers and saturation (R265, R267) -/

def Fmt.absPat (f : Fmt) (on : Bool) (v : Nat) : Nat := if on then v % f.sign else v
def Fmt.negPat (f : Fmt) (on : Bool) (v : Nat) : Nat :=
  if on then (if f.sign ≤ v then v - f.sign else v + f.sign) else v

/-- Clamp a result to [+0, 1]: -0 and NaN give +0 (R265). -/
def Fmt.satPat (f : Fmt) (on : Bool) (v : Nat) : Nat :=
  if !on then v
  else match f.dec v with
    | .nan => 0
    | .inf s => if s then 0 else f.bias * 2 ^ f.mant
    | x => if x.sgn then 0 else if f.bias * 2 ^ f.mant < v then f.bias * 2 ^ f.mant else v

/-- The operations of R265 and R267 on patterns, after the modifiers. -/
inductive FOp where
  | add | sub | mul | fma | min | max
  deriving DecidableEq, Repr

/-- One FP operation on patterns of a format (R265, R267). -/
def Fmt.op (f : Fmt) (op : FOp) (m : FMod) (a b c : Nat) : Nat :=
  let a := f.negPat m.nega (f.absPat m.absa a)
  let b := f.negPat m.negb (f.absPat m.absb b)
  let c := f.negPat m.negc c
  let x := f.dec a
  let y := f.dec b
  f.satPat m.sat (match op with
    | .add => f.enc (x.add y)
    | .sub => f.enc (x.add y.neg)
    | .mul => f.enc (x.mul y)
    | .fma => f.enc ((x.mul y).add (f.dec c))
    | .min => f.minPat false a b
    | .max => f.minPat true a b)

/-- FADD on two words, without modifiers. -/
def fadd32 (a b : Word) : Word := .ofNat 32 (fp32.enc ((fp32.dec a.toNat).add (fp32.dec b.toNat)))
def fsub32 (a b : Word) : Word := .ofNat 32 (fp32.enc ((fp32.dec a.toNat).add (fp32.dec b.toNat).neg))
def fmul32 (a b : Word) : Word := .ofNat 32 (fp32.enc ((fp32.dec a.toNat).mul (fp32.dec b.toNat)))
def ffma32 (a b c : Word) : Word :=
  .ofNat 32 (fp32.enc (((fp32.dec a.toNat).mul (fp32.dec b.toNat)).add (fp32.dec c.toNat)))

/-- An operation of the FP32 family on words (R265). -/
def fop32 (op : FOp) (m : FMod) (a b c : Word) : Word := .ofNat 32 (fp32.op op m a.toNat b.toNat c.toNat)

/-- An operation on both halves of a packed word (R267). -/
def hop2 (f : Fmt) (op : FOp) (m : FMod) (a b c : Word) : Word :=
  let half := fun (w : Word) (i : Nat) => w.toNat / 65536 ^ i % 65536
  .ofNat 32 (f.op op m (half a 0) (half b 0) (half c 0) + 65536 * f.op op m (half a 1) (half b 1) (half c 1))

/-- The half format of a packed TYPE. -/
def halfFmt : Ty → Fmt
  | .b2 => bf16
  | _ => fp16

/-- FCMP (R254): unordered operands answer `unord`, but for `.num` and `.nan`. -/
def fcmpVal (unord : Bool) (c : Cmp) (a b : Word) : Bool :=
  let x := fp32.dec a.toNat
  let y := fp32.dec b.toNat
  match c with
  | .num => !x.isNan && !y.isNan
  | .nan => x.isNan || y.isNan
  | _ => if x.isNan || y.isNan then unord else cmpOrd c (x.cmp y).1 (x.cmp y).2

/-! ## Rounding to integers -/

/-- A finite number as an integer, rounded in a direction (R266). -/
def roundInt (dir : RoundDir) (s : Bool) (m : Nat) (e : Int) : Int :=
  let k := (-e).toNat
  let n := if 0 ≤ e then m * 2 ^ e.toNat else m / 2 ^ k
  let r := if 0 ≤ e then 0 else m % 2 ^ k
  let up := match dir with
    | .rne => decide (2 ^ k < 2 * r) || (decide (2 * r = 2 ^ k) && n % 2 == 1 && decide (0 < k))
    | .rdn => s && r != 0
    | .rup => !s && r != 0
    | .rtz => false
  let v : Int := (if up then n + 1 else n : Nat)
  if s then -v else v

/-- FRINT (R266): a zero result keeps the sign of A. -/
def frintVal (dir : RoundDir) (a : Word) : Word :=
  match fp32.dec a.toNat with
  | .nan => 0x7FC00000
  | .inf _ => a
  | .fin s m e => .ofNat 32 (fp32.enc (ofIntAt (roundInt dir s m e) 0 s))

/-! ## D2P8 (R234, R237) -/

/-- The value of a byte in units of 2^-7. -/
def d2p8Units (c : Nat) : Int :=
  let term := fun (s k : Nat) => if s = 1 then -(2 ^ (7 - k) : Int) else 2 ^ (7 - k)
  let b := c % 8
  term (c / 128) (c / 16 % 8) + (if b = 7 then 0 else term (c / 8 % 2) b)

/-- A D2P8 byte as a number, scaled by 2^beta. -/
def d2p8Num (beta : Int) (c : Nat) : FNum := ofIntAt (d2p8Units (c % 256)) (beta - 7) false

/-- Prefer the lesser distance, then an even byte, then the lesser byte. -/
def d2p8Better (dist : Nat → Nat) (c best : Nat) : Bool :=
  decide (dist c < dist best) || (decide (dist c = dist best) && c % 2 == 0 && best % 2 == 1)

/-- The byte that a number converts to (R237), after its division by 2^beta. -/
def d2p8Enc (beta : Int) (x : FNum) : Nat :=
  match x with
  | .nan => 0x08
  | .inf s => ((List.range 256).foldl (fun best c =>
      if d2p8Better (fun c => (d2p8Units c - (if s then -256 else 256)).natAbs) c best then c else best) 0)
  | .fin s m e =>
    let e := e - beta
    let q := min e (-7)
    let v := intAt s m e q
    let dist := fun c => (d2p8Units c * 2 ^ (-7 - q).toNat - v).natAbs
    (List.range 256).foldl (fun best c => if d2p8Better dist c best then c else best) 0

/-! ## Conversions (R238, R269, R270) -/

/-- The number that the low bits of a pattern stand for under a TYPE (one half of a packed TYPE). -/
def numOf (ty : Ty) (v : Nat) : FNum :=
  let int := fun sg n => ofIntAt (elemVal sg n (v % 2 ^ n)) 0 false
  match ty with
  | .i32 => int true 32
  | .n32 => int false 32
  | .i16 | .i16x2 => int true 16
  | .n16 | .n16x2 => int false 16
  | .i8 => int true 8
  | .n8 => int false 8
  | .f32 => fp32.dec (v % 2 ^ 32)
  | .h2 => fp16.dec (v % 65536)
  | .b2 => bf16.dec (v % 65536)
  | .f8a => f8a.dec (v % 256)
  | .f8b => f8b.dec (v % 256)
  | .d2p8 => d2p8Num 0 v
  | .b64 | .b128 => int false 32

/-- A number as an `n`-bit integer: to nearest even, saturated, NaN to 0 (R238). -/
def numToInt (sg : Bool) (n : Nat) (x : FNum) : Int :=
  match x with
  | .nan => 0
  | .inf s => if s then clampElem sg n (-(2 ^ n)) else clampElem sg n (2 ^ n)
  | .fin s m e => clampElem sg n (roundInt .rne s m e)

/-- A number as the pattern of a TYPE, in its own width (R236-R238). -/
def patOf (ty : Ty) (x : FNum) : Nat :=
  let int := fun sg n => (numToInt sg n x % 2 ^ n).toNat
  match ty with
  | .i32 => int true 32
  | .n32 => int false 32
  | .i16 | .i16x2 => int true 16
  | .n16 | .n16x2 => int false 16
  | .i8 => int true 8
  | .n8 => int false 8
  | .f32 => fp32.enc x
  | .h2 => fp16.enc x
  | .b2 => bf16.enc x
  | .f8a => f8a.enc x
  | .f8b => f8b.enc x
  | .d2p8 => d2p8Enc 0 x
  | .b64 | .b128 => 0

/-- A pattern of a TYPE in a 32-bit register: signed narrow integers sign-extended, the others zero-extended (R269). -/
def regOf (ty : Ty) (v : Nat) : Word :=
  match ty with
  | .i8 => .ofInt 32 (elemVal true 8 v)
  | .i16 => .ofInt 32 (elemVal true 16 v)
  | _ => .ofNat 32 v

/-- Source and destination of a conversion are one format. -/
def sameFormat (dst src : Ty) : Bool := dst == src

/-- The signedness and width of an integer TYPE. -/
def intForm : Ty → Option (Bool × Nat)
  | .i32 => some (true, 32)
  | .n32 => some (false, 32)
  | .i16 => some (true, 16)
  | .n16 => some (false, 16)
  | .i8 => some (true, 8)
  | .n8 => some (false, 8)
  | _ => none

/-- An integer in a wider integer format: sign-extended from I, zero-extended from N, whatever the destination (R238). -/
def widenInt (dst src : Ty) (v : Nat) : Option Nat :=
  match intForm dst, intForm src with
  | some (_, n), some (sg, m) => if m < n then some (elemVal sg m (v % 2 ^ m) % 2 ^ n).toNat else none
  | _, _ => none

/-- The value conversion of CVT (R269): the same format passes the input unchanged but for NaN. -/
def cvtVal (dst src : Ty) (hi : Bool) (a : Word) : Word :=
  let v := if hi then a.toNat / 65536 else a.toNat
  if sameFormat dst src then
    let n := match dst with
      | .i8 | .n8 | .f8a | .f8b | .d2p8 => 8
      | .i16 | .n16 => 16
      | _ => 32
    match numOf src v with
    | .nan => regOf dst (patOf dst .nan)
    | _ => regOf dst (v % 2 ^ n)
  else regOf dst ((widenInt dst src v).getD (patOf dst (numOf src v)))

/-- The wide TYPE of the packed forms of R270. -/
def wideTy : Ty → Ty
  | .i8 | .i16x2 | .i16 => .i32
  | .n8 | .n16x2 | .n16 => .n32
  | _ => .f32

/-- Narrowing of PACK8 and PACKD (R270). -/
def narrow (ty : Ty) (a : Word) : Nat := patOf ty (numOf (wideTy ty) a.toNat)

/-- PACK8 (R270). -/
def pack8Val (ty : Ty) (hi : Bool) (a b c : Word) : Word :=
  let sh := if hi then 16 else 0
  let keep := c &&& ~~~ ((0xFFFF : Word) <<< sh)
  keep ||| (.ofNat 32 ((narrow ty a + 256 * narrow ty b) * 2 ^ sh))

/-- UNPK8 (R270). -/
def unpk8Val (ty : Ty) (k : Nat) (a : Word) : Word := regOf (wideTy ty) (patOf (wideTy ty) (numOf ty (byteOf a k)))

/-- PACKD (R270). -/
def packdVal (ty : Ty) (a b : Word) : Word := .ofNat 32 (narrow ty a + 65536 * narrow ty b)

/-! ## Square root -/

/-- The integer square root of `n`, bit by bit from bit `k`. -/
def isqrtFrom (n : Nat) : Nat → Nat → Nat
  | 0, r => r
  | k + 1, r => isqrtFrom n k (if (r + 2 ^ k) * (r + 2 ^ k) ≤ n then r + 2 ^ k else r)

/-- The integer square root. -/
def isqrt (n : Nat) : Nat := isqrtFrom n (Nat.log2 n / 2 + 1) 0

/-- FSQRT, correctly rounded (R240). -/
def fsqrtVal (a : Word) : Word :=
  match fp32.dec a.toNat with
  | .nan => 0x7FC00000
  | .inf s => if s then 0x7FC00000 else a
  | .fin s m e =>
    if m = 0 then a
    else if s then 0x7FC00000
    else
      let m' := (if e % 2 = 0 then m else 2 * m) * 2 ^ 64
      let h := (if e % 2 = 0 then e else e - 1) / 2
      let r := isqrt m'
      .ofNat 32 (fp32.enc (.fin false (2 * r + (if r * r = m' then 0 else 1)) (h - 33)))

/-! ## Transcendental instructions (R240)

The manual fixes the results of FRCP, FRSQ, FEX2, FLG2, FSIN and FCOS only up to a bound.  Each takes the free value of
`Config` where it lies within the bound of the exact result, and the nearest FP32 number where it does not (DESIGN CHOICE, log entry 11).
The exact function is known here to 2^-90 and better, in fixed point. -/

/-- Fixed-point numbers below have this many fraction bits. -/
def fixBits : Nat := 160

/-- pi in units of 2^-400. -/
def piFix : Nat :=
  8112377246730971238862271351300894519161151600179265203591191037615230905373990498745523360926816815427566779727327576236
/-- ln 2 in units of 2^-200. -/
def ln2Fix : Nat := 1113844574712631719546256151097547306333272293549090750737802

/-- The power series with terms t_(k+1) = t_k * z / (2^fixBits * d k): the sum of `n` terms from term `t`, number `k`. -/
def series (z : Int) (d : Nat → Nat) : Nat → Nat → Int → Int
  | 0, _, _ => 0
  | n + 1, k, t => t + series z d n (k + 1) (t * z / 2 ^ fixBits / (d k : Int))

/-- exp of a fixed-point number in [0, 1). -/
def expFix (z : Int) : Int := series z (fun k => k + 1) 45 0 (2 ^ fixBits)
/-- sin and cos of a fixed-point number in [-2, 2]. -/
def sinFix (z : Int) : Int := series (-(z * z / 2 ^ fixBits)) (fun k => (2 * k + 2) * (2 * k + 3)) 40 0 z
def cosFix (z : Int) : Int := series (-(z * z / 2 ^ fixBits)) (fun k => (2 * k + 1) * (2 * k + 2)) 40 0 (2 ^ fixBits)

/-- log2 of y * 2^-fixBits in [1, 2), as `n` more fraction bits below those gathered in `acc`. -/
def log2Bits : Nat → Nat → Nat → Nat
  | 0, _, acc => acc
  | n + 1, y, acc =>
    let y2 := y * y / 2 ^ fixBits
    if 2 * 2 ^ fixBits ≤ y2 then log2Bits n (y2 / 2) (2 * acc + 1) else log2Bits n y2 (2 * acc)

/-- The number a FP32 pattern stands for, in units of 2^-fixBits, rounded down. -/
def fixOf (s : Bool) (m : Nat) (e : Int) : Int :=
  let k := e + fixBits
  let v : Int := (if 0 ≤ k then m * 2 ^ k.toNat else m / 2 ^ (-k).toNat : Nat)
  if s then -v else v

/-- The unit in the last place of an exact magnitude v * 2^q, as an exponent. -/
def ulpExp (v : Nat) (q : Int) : Int := max fp32.emin (q + Nat.log2 v - 23)

/-- Whether a pattern lies within `units` * 2^u of the number v * 2^q, with one unit of 2^q for the error of v. -/
def within (p : Word) (v : Int) (q : Int) (units : Nat) (u : Int) : Bool :=
  match fp32.dec p.toNat with
  | .fin s m e =>
    let g := min (min e q) u
    let d := (intAt s m e g - v * 2 ^ (q - g).toNat).natAbs
    decide (d ≤ units * 2 ^ (u - g).toNat + 2 ^ (q - g).toNat)
  | _ => false

/-- The nearest FP32 pattern to v * 2^q. -/
def nearest32 (v : Int) (q : Int) : Word := .ofNat 32 (fp32.enc (ofIntAt v q false))

/-- The free value where it lies within the bound, the nearest number otherwise. -/
def held (p : Word) (v q : Int) (units : Nat) (u : Int) : Word := if within p v q units u then p else nearest32 v q

/-- FRCP (R240). -/
def frcpVal (a : Word) : Word :=
  match fp32.dec a.toNat with
  | .nan => 0x7FC00000
  | .inf s => if s then 0x80000000 else 0
  | .fin s m e =>
    if m = 0 then (if s then 0xFF800000 else 0x7F800000)
    else
      let v : Int := (2 ^ (fixBits + 24) / m : Nat)
      let q := -e - (fixBits + 24)
      let r := if s then -v else v
      let near := nearest32 r q
      if (fp32.dec near.toNat) = .inf s then near else held (Config.frcp a) r q 1 (ulpExp v.natAbs q)

/-- FRSQ (R240). -/
def frsqVal (a : Word) : Word :=
  match fp32.dec a.toNat with
  | .nan => 0x7FC00000
  | .inf s => if s then 0x7FC00000 else 0
  | .fin s m e =>
    if m = 0 then (if s then 0xFF800000 else 0x7F800000)
    else if s then 0x7FC00000
    else
      let m' := if e % 2 = 0 then m else 2 * m
      let h := (if e % 2 = 0 then e else e - 1) / 2
      let v : Int := (isqrt (2 ^ (2 * fixBits) / m') : Nat)
      let q := -h - fixBits
      held (Config.frsq a) v q 2 (ulpExp v.natAbs q)

/-- FEX2 (R240): a result too large for FP32 rounds to infinity; a result below 2^-149 rounds under R235. -/
def fex2Val (a : Word) : Word :=
  match fp32.dec a.toNat with
  | .nan => 0x7FC00000
  | .inf s => if s then 0 else a
  | .fin s m e =>
    if m != 0 && decide (8 ≤ e + Nat.log2 m) then (if s then 0 else 0x7F800000)
    else
      let x := fixOf s m e
      let n := x / 2 ^ fixBits
      let f := x % 2 ^ fixBits
      let v := expFix (f * (ln2Fix / 2 ^ (200 - fixBits) : Nat) / 2 ^ fixBits)
      let q := n - fixBits
      let near := nearest32 v q
      if (fp32.dec near.toNat) = .inf false || decide (q + Nat.log2 v.natAbs < -149) then near
      else held (Config.fex2 a) v q 2 (ulpExp v.natAbs q)

/-- FLG2 (R240): 2 ulp, or 2^-22 absolutely for x in [0.5, 2]. -/
def flg2Val (a : Word) : Word :=
  match fp32.dec a.toNat with
  | .nan => 0x7FC00000
  | .inf s => if s then 0x7FC00000 else a
  | .fin s m e =>
    if m = 0 then 0xFF800000
    else if s then 0x7FC00000
    else if a = 0x3F800000 then 0
    else
      let k := Nat.log2 m
      let y := m * 2 ^ (fixBits - k)
      let v : Int := (e + k) * 2 ^ 100 + (log2Bits 100 y 0 : Nat)
      let q : Int := -100
      let u := ulpExp v.natAbs q
      let r := Config.flg2 a
      if within r v q 2 u || (decide (0x3F000000 ≤ a.toNat) && decide (a.toNat ≤ 0x40000000) && within r v q 1 (-22)) then r
      else nearest32 v q

/-- The quadrant of an angle and its remainder in units of 2^-fixBits, reduced exactly by pi/2 (R240). -/
def reduceAngle (s : Bool) (m : Nat) (e : Int) : Int × Int :=
  let x := intAt s m (e + 401) 0
  let half : Int := piFix
  let n := (2 * x + half) / (2 * half)
  (n, (x - n * half) / 2 ^ (401 - fixBits))

/-- sin or cos of a finite angle in units of 2^-fixBits. -/
def trigFix (cosine : Bool) (s : Bool) (m : Nat) (e : Int) : Int :=
  let nr := reduceAngle s m e
  let n := (nr.1 + (if cosine then 1 else 0)) % 4
  let z := nr.2
  if n = 0 then sinFix z else if n = 1 then cosFix z else if n = 2 then -sinFix z else -cosFix z

/-- FSIN and FCOS (R240): within 2^-21 absolutely. -/
def trigVal (cosine : Bool) (guess : Word → Word) (a : Word) : Word :=
  match fp32.dec a.toNat with
  | .nan => 0x7FC00000
  | .inf _ => 0x7FC00000
  | .fin s m e =>
    if m = 0 && !cosine then a
    else held (guess a) (trigFix cosine s m e) (-(fixBits : Int)) 1 (-21)

end Sys2Proof.Machine
end

