-- ==== Sys2Proof/Machine/Copy.lean ====
section
/-! DEFINITION. COPY, COPYM, GATHER and COLL (R317-R321, R151, R407). -/
namespace Sys2Proof.Machine

/-! ## Uniform operands (R317) -/

/-- The 64-bit and 32-bit values of a uniform operand. -/
def Ctx.uni64 (c : Ctx) (o : Operand) : Nat := (c.w.read64 o 0).toNat
def Ctx.uni32 (c : Ctx) (o : Operand) : Nat := (c.w.read o 0).toNat
/-- An address: a scratchpad offset or a global VA. -/
def Ctx.uniAddr (c : Ctx) (scr : Bool) (o : Operand) : Nat := if scr then c.uni32 o else c.uni64 o

/-- BAD_ADDRESS of a global range, SCRATCH_BOUND of an offset range; an empty range is not checked (R141). -/
def Ctx.vaRange (s : State) (c : Ctx) (scr : Bool) (base len : Nat) : Check :=
  if !scr && !s.rangeOk base len then some (Cause.badAddress, c.act, .ofNat 64 base) else none
def Ctx.scrRange (c : Ctx) (b : Block) (scr : Bool) (base len : Nat) : Check :=
  if scr && len != 0 && decide (b.scrBytes < base + len) then some (Cause.scratchBound, c.act, .ofNat 64 base) else none

/-- ALIGNMENT of some values to a power of two. -/
def Ctx.uniAlign (c : Ctx) (n : Nat) (vs : List Nat) : Check :=
  match vs.find? fun v => v % n != 0 with
  | some v => some (Cause.alignment, c.act, .ofNat 64 v)
  | none => none

/-! ## COPY (R318) -/

/-- COPY; roles COPY and EPI in a block with roles (R160), as for COPYM and GATHER. -/
def execCopy (h : Hdr) (dscr sscr : Bool) (d a b : Operand) (tag : BitVec 6) (s : State) : Out :=
  issue s h fun c =>
    let dst := c.uniAddr dscr d
    let src := c.uniAddr sscr a
    let len := c.uni32 b
    let core := c.b.core
    engineIssue s c
      [c.regCheck [] [(d, if dscr then 1 else 2), (a, if sscr then 1 else 2), (b, 1)], c.roleCheck [1, 3]]
      [c.vaRange s dscr dst len, c.vaRange s sscr src len, c.scrRange c.b dscr dst len, c.scrRange c.b sscr src len,
       c.uniAlign 16 [dst, src, len]]
      { kind := .copy, ctr := .cp, tag := tag.toNat, instr := .copy h dscr sscr d a b tag
        vals := [.ofNat 64 dst, .ofNat 64 src, .ofNat 64 len]
        ranges := [⟨core, c.bi, false, sscr, src, len⟩, ⟨core, c.bi, true, dscr, dst, len⟩]
        empty := len == 0 } (some a) (some b)

/-- A captured value of an operation. -/
def EngOp.val (o : EngOp) (i : Nat) : Nat := (o.vals.getD i 0).toNat

/-- The bytes that a copy to `d` bytes above its source writes: where the ranges overlap each is the source byte's value before the
operation or the one that the operation writes there, `d` bytes earlier (R318; DESIGN CHOICE, log entry 47). -/
def overlapUp (k d : Nat) (bs : List (Byte × Bool)) : List (Byte × Bool) :=
  (bs.zipIdx.foldl (fun out x => (if Config.overlapNew k x.2 then out.getD (d - 1) x.1 else x.1) :: out) []).reverse

/-- The bytes that a copy from `src` to `dst` in one space writes. -/
def overlapCopy (k dst src : Nat) (bs : List (Byte × Bool)) : List (Byte × Bool) :=
  if src < dst ∧ dst < src + bs.length then overlapUp k (dst - src) bs
  else if dst < src ∧ src < dst + bs.length then (overlapUp k (src - dst) bs.reverse).reverse
  else bs

/-- The 256-byte lines that `n` bytes from `a` touch, one for no bytes. -/
def lineCount (a n : Nat) : Nat := (a + n - 1) / 256 - a / 256 + 1
/-- Of `n` bytes from `a`, how many come before line `k` of them, and how many lie in it. -/
def linePart (a n k : Nat) : Nat × Nat :=
  let lo := max a (256 * (a / 256 + k))
  (lo - a, min (a + n) (256 * (a / 256 + k + 1)) - lo)

/-- Source and destination of a COPY overlap: it has no restart point within. -/
def copyMeets (o : EngOp) (dscr sscr : Bool) : Bool :=
  dscr == sscr && decide (o.val 1 < o.val 0 + o.val 2) && decide (o.val 0 < o.val 1 + o.val 2)
/-- The parts of a COPY: its destination's lines (R147). -/
def copyParts (o : EngOp) (dscr sscr : Bool) : Nat := if copyMeets o dscr sscr then 1 else lineCount (o.val 0) (o.val 2)
def copyPart (o : EngOp) (dscr sscr : Bool) : Nat × Nat :=
  if copyMeets o dscr sscr then (0, o.val 2) else linePart (o.val 0) (o.val 2) o.done

/-- What a COPY writes of `n` bytes that lie `off` bytes into it. -/
def State.runCopy (s : State) (i : Nat) (o : EngOp) (dscr sscr : Bool) (off n : Nat) : Eng (List EngWrite) :=
  (s.engSource i o sscr (o.val 1 + off) n).bind fun s bs =>
    (s.engDest i o dscr (o.val 0 + off) n).bind fun s ts =>
      .ok s (engWrites ts (if dscr = sscr then overlapCopy s.choice (o.val 0) (o.val 1) bs else bs))

/-! ## COPYM (R319, R127) -/

/-- The block of a gang on a core, the lowest rank where there are several. -/
def State.gangBlockOn (s : State) (b : Block) (core : Nat) : Option Nat :=
  let cands := (s.resident core).filter fun i =>
    let x := s.block i
    x.grid == b.grid && x.gang == b.gang && !x.spawned
  cands.foldl (fun (m : Option Nat) i => match m with
    | none => some i
    | some j => if (s.block i).rank < (s.block j).rank then some i else some j) none

/-- The cores of a COPYM's mask, as numbers of cores. -/
def maskCores (core : Nat) (mask : BitVec 4) : List Nat :=
  ((List.range 4).filter fun q => mask.getLsbD q).map fun q => core / 4 * 4 + q

/-- COPYM. -/
def execCopym (h : Hdr) (d a b : Operand) (tag : BitVec 6) (mask bar : BitVec 4) (s : State) : Out :=
  issue s h fun c =>
    let dst := c.uni32 d
    let src := c.uni64 a
    let len := c.uni32 b
    let cores := maskCores c.b.core mask
    let recv := cores.filterMap fun k =>
      if c.b.spawned then none else (s.gangBlockOn c.b k).map fun r => (k, r)
    let req : EngReq :=
      { kind := .copy, ctr := .cp, tag := tag.toNat, instr := .copym h d a b tag mask bar
        vals := [.ofNat 64 dst, .ofNat 64 src, .ofNat 64 len], recv := recv
        ranges := ⟨c.b.core, c.bi, false, false, src, len⟩ :: recv.map fun r => ⟨r.1, r.2, true, true, dst, len⟩
        empty := len == 0 }
    -- with nothing to copy the arrivals are made at issue (R141)
    let arriveAll := fun (s : State) => if len = 0 then recv.foldl (fun s r => s.arrive r.2 .bb bar.toNat) s else s
    engineIssue s c [c.regCheck [] [(d, 1), (a, 2), (b, 1)], c.roleCheck [1, 3]]
      [if recv.length = cores.length then none else some (Cause.copymTarget, c.act, 0),
       c.vaRange s false src len,
       if len != 0 && recv.any fun r => decide ((s.block r.2).scrBytes < dst + len) then
         some (Cause.scratchBound, c.act, .ofNat 64 dst) else none,
       c.uniAlign 16 [dst, src, len],
       if recv.any fun r => ((s.block r.2).bb.getD bar.toNat {}).expect == 0 then
         some (Cause.barrierMember, c.act, 0) else none]
      req (some a) (some b) arriveAll

/-- COPYM_ARRIVAL (R319): the bytes are in a receiver's scratchpad, and its barrier counts one arrival. -/
def execCopymArrival (op idx : Nat) (s : State) : Out :=
  match s.ops[op]? with
  | none => .fault .eventCannotOccur
  | some o =>
    match o.instr, o.recv[idx]? with
    | .copym _ _ _ _ _ _ bar, some (_, r) =>
      if !s.opRuns o || o.arrived.getLsbD idx then .fault .eventCannotOccur
      else heldToSlot s (s.opCls o) <|
        let src := if o.data = [] then s.engSource op o false (o.val 1) (o.val 2) else .ok s o.data
        match src with
        | .fault s' => .next s'
        | .more s' => .next s'
        | .wait s' => waited s s'
        | .fail s' e => .next (s'.updOp op fun o => { o with failed := some e })
        | .ok s' bs =>
          let s1 := s'.updOp op fun o => { o with data := bs, arrived := o.arrived ||| (1#4 <<< idx) }
          if (s1.block r).life == .resident then
            let ws := engWrites ((span (o.val 0) (o.val 2)).map fun a => .scr r a) bs
            .next ((s1.doWrites o ws).arrive r .bb bar.toNat)
          else .next s1
    | _, _ => .fault .eventCannotOccur

/-- Every receiver of a COPYM has its copy. -/
def copymDone (o : EngOp) : Bool := (List.range o.recv.length).all fun i => o.arrived.getLsbD i

/-! ## GATHER (R320) -/

/-- GATHER. -/
def execGather (h : Hdr) (iscr : Bool) (d a b : Operand) (tag : BitVec 6) (row : BitVec 12) (count : BitVec 14) (s : State) :
    Out :=
  issue s h fun c =>
    let dst := c.uni32 d
    let base := c.uni64 a
    let list := c.uniAddr iscr b
    let rb := 16 * (row.toNat + 1)
    let n := count.toNat
    engineIssue s c [c.regCheck [] [(d, 1), (a, 2), (b, if iscr then 1 else 2)], c.roleCheck [1, 3]]
      [c.vaRange s iscr list (4 * n), c.scrRange c.b iscr list (4 * n), c.scrRange c.b true dst (n * rb),
       c.uniAlign 16 [base], c.uniAlign 4 [list]]
      { kind := .copy, ctr := .cp, tag := tag.toNat, instr := .gather h iscr d a b tag row count
        vals := [.ofNat 64 dst, .ofNat 64 base, .ofNat 64 list, .ofNat 64 rb, .ofNat 64 n]
        ranges := [⟨c.b.core, c.bi, false, iscr, list, 4 * n⟩, ⟨c.b.core, c.bi, true, true, dst, n * rb⟩]
        empty := n == 0 } (some a) (some b)

/-- A row of a GATHER from the index read; a poisoned index poisons it. -/
def State.gatherRow (s : State) (i : Nat) (o : EngOp) (base rb idx : Nat) (bad : Bool) : Eng (List (Byte × Bool)) :=
  if idx = 0xFFFFFFFF then .ok s (List.replicate rb (0, bad))
  else if !s.rangeOk (base + idx * rb) rb then .fail s (errOf o TagCause.memory 0 (base + idx * rb))
  else (s.engRead i o (span (base + idx * rb) rb)).bind fun s bs => .ok s (bs.map fun x => (x.1, x.2 || bad))

/-- What a GATHER writes of row `k`. -/
def State.runGather (s : State) (i : Nat) (o : EngOp) (iscr : Bool) (k : Nat) : Eng (List EngWrite) :=
  (s.engSource i o iscr (o.val 2 + 4 * k) 4).bind fun s ix =>
    (s.gatherRow i o (o.val 1) (o.val 3) (leNat (ix.map Prod.fst)) (ix.any Prod.snd)).bind fun s bs =>
      .ok s (engWrites ((span (o.val 0 + k * o.val 3) (o.val 3)).map fun a => .scr o.block a) bs)

/-! ## COLL (R321, R407, R151) -/

/-- Bytes of an element. -/
def collBytes : Ty → Nat
  | .i8 | .n8 | .f8a | .f8b => 1
  | .i16 | .n16 | .h2 | .b2 => 2
  | _ => 4

/-- The words of a group. -/
def State.collGroup (s : State) (g : Nat) : DWord × DWord := Sparse.get (0, 0) s.coll.groups g
/-- C-dies of this device in a group. -/
def State.collDies (s : State) (g : Nat) : List Nat :=
  (List.range 8).filter fun d => (s.collGroup g).1.getLsbD (48 + d)

/-- COLL. -/
def execColl (h : Hdr) (ty : Ty) (op : CollOp) (sscr dscr : Bool) (d a b : Operand) (tag group : BitVec 6) (s : State) : Out :=
  issue s h fun c =>
    let dst := c.uniAddr dscr d
    let src := c.uniAddr sscr a
    let n := c.uni32 b
    let len := n * collBytes ty
    let lock := alignTo16 len
    let die := dieOf c.b.core
    let g := s.collGroup group.toNat
    engineIssue s c [c.regCheck [] [(d, if dscr then 1 else 2), (a, if sscr then 1 else 2), (b, 1)]]
      [c.vaRange s dscr dst lock, c.vaRange s sscr src lock, c.scrRange c.b dscr dst lock, c.scrRange c.b sscr src lock,
       c.uniAlign 16 [dst, src],
       if g.1.getLsbD 63 && g.1.getLsbD (48 + die) then none else some (Cause.collMember, c.act, 0)]
      { kind := .coll, ctr := .cp, tag := tag.toNat, instr := .coll h ty op sscr dscr d a b tag group
        vals := [.ofNat 64 dst, .ofNat 64 src, .ofNat 64 n]
        ranges := [⟨c.b.core, c.bi, false, sscr, src, lock⟩, ⟨c.b.core, c.bi, true, dscr, dst, lock⟩]
        coll := some (group.toNat, die) } (some a) (some b)
where
  /-- A length rounded up to 16 bytes. -/
  alignTo16 (n : Nat) : Nat := (n + 15) / 16 * 16

/-- Operation, type, spaces and group of a COLL. -/
def collOf (o : EngOp) : Option (Ty × CollOp × Bool × Bool × Nat) :=
  match o.instr with
  | .coll _ ty op sscr dscr _ _ _ _ group => some (ty, op, sscr, dscr, group.toNat)
  | _ => none

/-- The operations of a pairing: those of its members that have joined, with their numbers, in ascending die number. -/
def State.pairing (s : State) (g pos : Nat) : List (Nat × EngOp) :=
  (s.collDies g).filterMap fun d =>
    ((List.range s.ops.length).filterMap fun i =>
      match s.ops[i]? with
      | some o => if o.engine == 28 && o.life == .running && o.pair == pos && dieOf o.core == d
            && (collOf o).any (fun x => x.2.2.2.2 == g) then some (i, o) else none
      | none => none).head?

/-- The other devices of a group, by peer number. -/
def State.collPeers (s : State) (g : Nat) : List Nat :=
  (List.range (bits (s.collGroup g).1 47 40 - 1)).map fun k => k + 1

/-- Every other device of a group is reached over links of version 2 (R405). -/
def State.peersReach (s : State) (g : Nat) : Bool :=
  (s.collPeers g).all fun p =>
    let r : DWord := Sparse.get 0 s.izroute p
    let port : Port := Sparse.get {} s.ports (bits r 3 0)
    r.getLsbD 63 && port.up && decide (2 ≤ port.version)

/-- An integer payload. -/
def collInt : Ty → Bool
  | .i8 | .n8 | .i16 | .n16 | .i32 | .n32 => true
  | _ => false

/-- An element in the accumulator type (R151). -/
def collIn (ty : Ty) (v : Nat) : Word :=
  if collInt ty then
    match numOf ty v with
    | .fin neg m e => .ofInt 32 (intAt neg m e 0)
    | _ => 0
  else .ofNat 32 (fp32.enc (numOf ty v))

/-- One addition, and the final conversion (R151). -/
def collAdd (ty : Ty) (a b : Word) : Word := if collInt ty then a + b else fadd32 a b
def collOut (ty : Ty) (v : Word) : Nat :=
  if collInt ty then v.toNat % 2 ^ (8 * collBytes ty)
  else if ty == .f32 then v.toNat else patOf ty (fp32.dec v.toNat)

/-- Element `k` of some bytes, with poison. -/
def collElem (ty : Ty) (bs : List (Byte × Bool)) (k : Nat) : Nat × Bool :=
  let e := (bs.drop (k * collBytes ty)).take (collBytes ty)
  (leNat (e.map Prod.fst), e.any Prod.snd)

/-- The result of a reduction from the contributions in ascending die number. -/
def State.collSum (s : State) (g : Nat) (ty : Ty) (n : Nat) (srcs : List (List (Byte × Bool))) : List (Byte × Bool) :=
  (List.range n).flatMap fun k =>
    let es := srcs.map fun bs => collElem ty bs k
    let part := match es.map fun e => collIn ty e.1 with
      | [] => 0
      | x :: t => t.foldl (collAdd ty) x
    let total := if s.collPeers g = [] then part else Config.switchSum s.choice k part
    (leBytes (collBytes ty) (collOut ty total)).map fun b => (b, es.any Prod.snd)

/-- Mark the operations of a pairing as failed with CAUSE PEER. -/
def State.failPairing (s : State) (ps : List (Nat × EngOp)) : State :=
  ps.foldl (fun s p => s.updOp p.1 fun o => { o with failed := some (errOf o TagCause.peer 0 0) }) s

/-- Read the sources of the members `ps` of a pairing `all` in order.  A member whose read fails does so with its own cause (R146), and
the others, which can receive no sum, with CAUSE PEER (DESIGN CHOICE, log entry 52). -/
def State.collSources (s : State) (all : List (Nat × EngOp)) : List (Nat × EngOp) → Eng (List (List (Byte × Bool)))
  | [] => .ok s []
  | (i, o) :: t =>
    match collOf o with
    | none => .ok s []
    | some (ty, _, sscr, _, _) =>
      match s.engSource i o sscr (o.val 1) (o.val 2 * collBytes ty) with
      | .ok s bs => (s.collSources all t).bind fun s rest => .ok s (bs :: rest)
      | .fail s e => .more ((s.failPairing all).updOp i fun o => { o with failed := some e })
      | r => r.bind fun s _ => .more s

/-- Every member of a pairing has joined: what each will write is settled, or all fail (R321). -/
def State.pairUp (s : State) (g : Nat) (ps : List (Nat × EngOp)) : Eng Unit :=
  match ps with
  | [] => .ok s ()
  | (_, o) :: _ =>
    match collOf o with
    | none => .ok s ()
    | some (ty, op, _, _, _) =>
      let same := ps.all fun p => (collOf p.2).any (fun x => x.1 == ty && x.2.1 == op) && p.2.val 2 == o.val 2
      if !same || !s.peersReach g then .ok (s.failPairing ps) ()
      else
        let rootDev := bits (s.collGroup g).1 39 32
        let rootDie := bits (s.collGroup g).1 31 29
        let n := o.val 2
        let len := n * collBytes ty
        (s.collSources ps ps).bind fun s srcs =>
          let give := fun (p : Nat × EngOp) => match op with
            | .allsum => s.collSum g ty n srcs
            | .sumto => if rootDev = 0 && dieOf p.2.core == rootDie then s.collSum g ty n srcs else []
            | .bcast =>
              if rootDev = 0 then
                ((ps.zip srcs).find? fun x => dieOf x.1.2.core == rootDie).elim [] fun x => x.2
              else (List.range len).map fun k => (Config.peerByte s.choice k, false)
          .ok (ps.foldl (fun s p => s.updOp p.1 fun o => { o with data := give p, arrived := 1 }) s) ()

/-- What a COLL writes, once its pairing is settled; the step that settles it writes nothing. -/
def State.runColl (s : State) (i : Nat) (o : EngOp) : Eng (List EngWrite) :=
  match collOf o with
  | none => .ok s []
  | some (_, _, _, dscr, g) =>
    if o.arrived = 0 then
      let ps := s.pairing g o.pair
      if ps.length < (s.collDies g).length then .wait s
      else (s.pairUp g ps).bind fun s _ => .more s
    else
      (s.engDest i o dscr (o.val 0) o.data.length).bind fun s ts => .ok s (engWrites ts o.data)

/-- COLL_JOIN_TIMEOUT (R321): a member of the oldest open pairing of a group has not joined in time. -/
def execCollJoinTimeout (group : BitVec 6) (s : State) : Out :=
  let g := group.toNat
  let limit := bits (s.collGroup g).2 31 0 * 1024
  let open' := s.ops.filter fun o => o.engine == 28 && o.life == .running && o.arrived == 0 && o.failed.isNone
    && ((collOf o).any fun x => x.2.2.2.2 == g) && decide ((s.pairing g o.pair).length < (s.collDies g).length)
  match open'.find? fun o => limit != 0 && decide (o.since + limit ≤ s.clk) with
  | none => .fault .eventCannotOccur
  | some o => .next (s.failPairing (s.pairing g o.pair))

/-- COLL_GROUP_WRITE (R407): a word of a group's entry; writing V = 1 restarts every member's count at 0 (R321). -/
def execCollGroupWrite (group : BitVec 6) (word : BitVec 1) (val : DWord) (s : State) : Out :=
  let g := group.toNat
  let old := s.collGroup g
  let keep0 : DWord := 0x80FFFFFFE0000000
  let new := if word = 0 then (val &&& keep0, old.2) else (old.1, val &&& 0xFFFFFFFF)
  let counts := if word = 0 && val.getLsbD 63 then
      (List.range 8).foldl (fun m d => Sparse.set 0 m (8 * g + d) 0) s.coll.counts else s.coll.counts
  .next { s with coll := { groups := Sparse.set (0, 0) s.coll.groups g new, counts := counts } }

end Sys2Proof.Machine
end

