-- ==== Sys2Proof/WellFormed.lean ====
section
/-! DEFINITION. Which instructions the manual calls valid: `encodable` is what R222 step 3 asks beyond reserved bits
(TYPE, SUB, ORD, SCOPE, numbers), `operandsOk` is step 4 (operand spaces, pairs, K destinations).  An event of the opcode
table has no word and is well formed as it stands. -/
namespace Sys2Proof

namespace Operand

/-- The sources that R247 accepts where an entry says nothing else. -/
def src : Operand → Bool
  | .v _ | .k _ | .l _ | .o _ | .zero | .laneid | .x _ | .vx _ _ | .const _ => true
  | .f _ | .nf _ | .j _ | .t _ => false

/-- V, O, K and indexed V: the destinations of R247. -/
def dst : Operand → Bool
  | .v _ | .o _ | .k _ | .vx _ _ => true
  | _ => false

/-- V, O and indexed V. -/
def laneDst : Operand → Bool
  | .v _ | .o _ | .vx _ _ => true
  | _ => false

/-- V, O, F and indexed V: the status destinations of R322, R324 and R328. -/
def statusDst : Operand → Bool
  | .v _ | .o _ | .vx _ _ | .f _ => true
  | _ => false

def isK : Operand → Bool
  | .k _ => true
  | _ => false

def isFlag : Operand → Bool
  | .f _ => true
  | _ => false

/-- A flag or complemented flag (R254, R255, R274). -/
def isCondFlag : Operand → Bool
  | .f _ | .nf _ => true
  | _ => false

/-- A condition operand of R280. -/
def isCond : Operand → Bool
  | .f _ | .nf _ => true
  | .const n => n.val == 1
  | _ => false

def isJ : Operand → Bool
  | .j _ => true
  | _ => false

def isT : Operand → Bool
  | .t _ => true
  | _ => false

/-- A source held once per wave (R219, R280): K, constant table or ZERO. -/
def uniform : Operand → Bool
  | .k _ | .const _ | .zero => true
  | _ => false

/-- A 64-bit uniform source: an even K pair, a constant code or ZERO (R280). -/
def uniform64 : Operand → Bool
  | .k n => n.val % 2 == 0
  | .const _ | .zero => true
  | _ => false

/-- An even K pair. -/
def kPair : Operand → Bool
  | .k n => n.val % 2 == 0
  | _ => false

/-- An even V or K pair. -/
def pair : Operand → Bool
  | .v n => n.val % 2 == 0
  | .k n => n.val % 2 == 0
  | _ => false

/-- A V or K group of four registers. -/
def quad : Operand → Bool
  | .v n => n.val % 4 == 0
  | .k n => n.val % 4 == 0
  | _ => false

/-- A V code that is a multiple of `m`. -/
def vMult (m : Nat) : Operand → Bool
  | .v n => n.val % m == 0
  | _ => false

/-- A 64-bit operand in V or K (R217): an even pair, or indexed V, which covers the register it names and the next (R176).
DEDUCED that an indexed operand may be wide, and is not checked for evenness (log 19). -/
def wideDst : Operand → Bool
  | .vx _ _ => true
  | opd => opd.pair

/-- A 64-bit source of R253, R273 and R312: as a destination, or a constant code or ZERO; no O, L, X or LANEID. -/
def wideSrc : Operand → Bool
  | .const _ | .zero => true
  | opd => opd.wideDst

/-- A 128-bit operand in V or K (R217). -/
def wideQuad : Operand → Bool
  | .vx _ _ => true
  | opd => opd.quad

/-- A 64-bit operand in V. -/
def wideV : Operand → Bool
  | .vx _ _ => true
  | opd => opd.vMult 2

/-- A or B of a memory operand (R306): V, K or ZERO. -/
def addr : Operand → Bool
  | .v _ | .k _ | .zero => true
  | _ => false

/-- An address operand that is held once per wave (R306): K or ZERO. -/
def addrUniform : Operand → Bool
  | .k _ | .zero => true
  | _ => false

/-- V, O, K or a constant code: the length of DISCARD, the index of VEMIT, the level of TEXQ.size. -/
def lenSrc : Operand → Bool
  | .v _ | .o _ | .k _ | .const _ => true
  | _ => false

end Operand

/-- R219 for groups 0x3-0x7: a K destination needs sources that are all K, J, constant or ZERO. -/
def kRule (d : Operand) (srcs : List Operand) : Bool :=
  !d.isK || srcs.all (fun o => o.uniform || o.isJ)

/-- The four element types of R251. -/
def Ty.elem : Ty → Bool
  | .i32 | .n32 | .i16x2 | .n16x2 => true
  | _ => false

/-- The two 32-bit integer types. -/
def Ty.int32 : Ty → Bool
  | .i32 | .n32 => true
  | _ => false

/-- The three 32-bit types. -/
def Ty.word : Ty → Bool
  | .i32 | .n32 | .f32 => true
  | _ => false

/-- The types that LD, ST and LDP accept (R308). -/
def Ty.access : Ty → Bool
  | .i8 | .n8 | .i16 | .n16 | .i32 | .n32 | .f32 | .b64 | .b128 => true
  | _ => false

/-- The types of the packed 16-bit family (R267). -/
def Ty.half2 : Ty → Bool
  | .h2 | .b2 => true
  | _ => false

/-- The destination formats of CVT (R269). -/
def Ty.cvtDst : Ty → Bool
  | .i32 | .n32 | .f32 | .i8 | .n8 | .i16 | .n16 | .f8a | .f8b | .d2p8 => true
  | _ => false

/-- The packed source formats of CVT (R269). -/
def Ty.packedSrc : Ty → Bool
  | .i16x2 | .n16x2 | .h2 | .b2 => true
  | _ => false

/-- The byte formats of PACK8 and UNPK8 (R270). -/
def Ty.byteFmt : Ty → Bool
  | .i8 | .n8 | .f8a | .f8b | .d2p8 => true
  | _ => false

/-- The element types of COLL (R321). -/
def Ty.coll : Ty → Bool
  | .i8 | .n8 | .i16 | .n16 | .i32 | .n32 | .f32 | .h2 | .b2 | .f8a | .f8b => true
  | _ => false

/-- The numbers of R301 and whether SWR may write them. -/
def sregWritable (n : Byte) : Option Bool :=
  match n.toNat with
  | 0x00 | 0x01 | 0x02 | 0x03 | 0x09 | 0x10 | 0x18 | 0x19 | 0x1A => some false
  | 0x08 | 0x0A | 0x11 => some true
  | _ => none

/-- ORD, SPACE and SCOPE of a load, store or atomic (R220): scratchpad accesses are plain, and the SCOPE of a plain access
is 0. -/
def MemMod.ok (m : MemMod) : Bool :=
  (!m.scr || m.ord == .plain) && (m.ord != .plain || m.scope == .wave)

/-- The barrier numbers of a level (R293). -/
def BarLevel.ok : BarLevel → BitVec 4 → Bool
  | .bb, _ => true
  | .cb, n => n.toNat < 8
  | .gb, n => n.toNat < 4

/-- The modifiers FADD and its kin accept: no `.negc` (R265). -/
def FMod.noC (m : FMod) : Bool := !m.negc
/-- The modifiers of the packed family: no absolute values (R267). -/
def FMod.noAbs (m : FMod) : Bool := !m.absa && !m.absb

/-- TYPE and op of REDW and SCANW (R276). -/
def redOk (ty : Ty) (op : RedOp) : Bool :=
  ty.int32 || (ty == .f32 && (op == .add || op == .min || op == .max))

namespace Instr

/-- The guard of an instruction that must carry G = 0 is 0 (R196). -/
def guardOk (h : Hdr) : Bool := h.guard == .always

/-- R222 step 3 beyond the reserved bits: TYPE, SUB, ORD, SCOPE and numbers that the entry defines. -/
def encodable : Instr → Bool
  | .bra h _ | .jmask h _ | .join h _ | .elseI h _ | .endifI h | .loop h | .endloop h _ => guardOk h
  | .brc h _ _ | .ifI h _ _ => guardOk h
  | .breakI h _ n | .cont h _ n => guardOk h && 2 ≤ n.toNat
  | .srd _ n _ | .swr _ n _ => (sregWritable n).isSome
  | .icinv _ s => s != .system
  | .barArrive _ l n | .barSync _ l n | .barWait _ l n _ | .barph _ l n _ => l.ok n
  | .iadd _ ty _ _ _ _ | .isub _ ty _ _ _ _ | .imad _ ty _ _ _ _ _ | .imul _ ty _ _ _ | .imin _ ty _ _ _
  | .imax _ ty _ _ _ => ty.elem
  | .iaddc _ ty _ _ _ _ _ | .imulh _ ty _ _ _ | .imad64 _ ty _ _ _ _ => ty.int32
  | .iadd64 _ ty _ _ _ => ty == .b64
  | .iabs _ ty _ _ _ => ty == .i32 || ty == .i16x2
  | .icmp _ ty c _ _ _ => ty.int32 && c != .num && c != .nan
  | .isel _ ty _ _ _ _ => ty.word
  | .idot4 _ ty _ _ _ _ _ => ty == .i8 || ty == .n8
  | .mov _ ty _ _ => ty.word || ty == .b64 || ty == .b128
  | .movi _ ty _ _ => ty.word || ty == .b64
  | .shl _ ty _ _ _ | .shr _ ty _ _ _ | .sar _ ty _ _ _ | .rotl _ ty _ _ _ | .and _ ty _ _ _ | .or _ ty _ _ _
  | .xor _ ty _ _ _ | .andn _ ty _ _ _ | .bfx _ ty _ _ _ | .bilv _ ty _ _ _ => ty.int32
  | .fshl _ ty _ _ _ _ | .fshr _ ty _ _ _ _ | .bfi _ ty _ _ _ _ | .prmt _ ty _ _ _ _ => ty.int32
  | .not _ ty _ _ | .clz _ ty _ _ | .ctz _ ty _ _ | .popc _ ty _ _ | .brev _ ty _ _ | .bdil _ ty _ _ => ty.int32
  | .fadd _ ty m _ _ _ | .fsub _ ty m _ _ _ | .fmul _ ty m _ _ _ | .fmin _ ty m _ _ _ | .fmax _ ty m _ _ _ =>
    ty == .f32 && m.noC
  | .ffma _ ty _ _ _ _ _ => ty == .f32
  | .fcmp _ ty u c _ _ _ => ty == .f32 && !(u && (c == .num || c == .nan))
  | .frint _ ty _ _ _ => ty == .f32
  | .hadd2 _ ty m _ _ _ | .hmul2 _ ty m _ _ _ | .hmin2 _ ty m _ _ _ | .hmax2 _ ty m _ _ _ =>
    ty.half2 && m.noC && m.noAbs
  | .hfma2 _ ty m _ _ _ _ => ty.half2 && m.noAbs
  | .frcp _ ty _ _ | .frsq _ ty _ _ | .fsqrt _ ty _ _ | .fex2 _ ty _ _ | .flg2 _ ty _ _ | .fsin _ ty _ _
  | .fcos _ ty _ _ => ty == .f32
  | .cvt _ dst src hi _ _ => dst.cvtDst && (src.cvtDst || src.packedSrc) && (!hi || src.packedSrc)
  | .pack8 _ ty _ _ _ _ _ | .unpk8 _ ty _ _ _ => ty.byteFmt
  | .packd _ ty _ _ _ => ty.packedSrc
  | .shfl _ ty _ _ _ _ | .rdlane _ ty _ _ _ | .matchI _ ty _ _ => ty.word || ty == .b64
  | .vote _ ty _ _ _ => ty == .i32
  | .redw _ ty op _ _ => redOk ty op
  | .scanw _ ty op _ _ _ => redOk ty op
  | .ddx _ ty _ _ | .ddy _ ty _ _ => ty == .f32
  | .quad _ ty m n _ _ => ty.word && (m == .bcast || n == 0)
  | .ld _ m _ _ _ _ => m.ok && m.ty.access && (m.ord == .plain || m.ord == .acq)
  | .st _ m _ _ _ _ => m.ok && m.ty.access && (m.ord == .plain || m.ord == .rel)
  | .ldp _ ty _ _ _ _ => ty.access
  | .atomAdd _ m _ _ _ _ _ | .atomAnd _ m _ _ _ _ _ | .atomOr _ m _ _ _ _ _ | .atomXor _ m _ _ _ _ _ =>
    m.ok && (m.ty.int32 || m.ty == .b64)
  | .atomMin _ m _ _ _ _ _ | .atomMax _ m _ _ _ _ _ => m.ok && m.ty.int32
  | .atomExch _ m _ _ _ _ _ | .atomCas _ m _ _ _ _ _ _ => m.ok && (m.ty.word || m.ty == .b64)
  | .atomFaddF32 _ m _ _ _ _ _ => m.ok && m.ty == .f32
  | .atomFaddB2 _ m _ _ _ _ _ => m.ok && m.ty == .b2
  | .redAdd _ m _ _ _ _ | .redAnd _ m _ _ _ _ | .redOr _ m _ _ _ _ | .redXor _ m _ _ _ _ =>
    m.ok && (m.ord == .plain || m.ord == .rel) && (m.ty.int32 || m.ty == .b64)
  | .redMin _ m _ _ _ _ | .redMax _ m _ _ _ _ => m.ok && (m.ord == .plain || m.ord == .rel) && m.ty.int32
  | .redFaddF32 _ m _ _ _ _ => m.ok && (m.ord == .plain || m.ord == .rel) && m.ty == .f32
  | .redFaddB2 _ m _ _ _ _ => m.ok && (m.ord == .plain || m.ord == .rel) && m.ty == .b2
  | .fence _ m => m.ty == .i32 && !m.scr && m.ord != .plain
  | .fencer _ m => m.ty == .i32 && !m.scr && m.ord == .plain && (m.scope == .block || m.scope == .cluster || m.scope == .device)
  | .copym _ _ _ _ _ mask _ => mask != 0
  | .coll _ ty _ _ _ _ _ _ _ _ => ty.coll
  | _ => true

/-- The width rules of the D operand of LD and LDP (R308); `uni` says the address is uniform. -/
def ldDst (ty : Ty) (d : Operand) (uni : Bool) : Bool :=
  (match ty with
   | .b64 => d.wideDst
   | .b128 => d.wideQuad
   | _ => d.dst) && (!d.isK || uni)

/-- The data operand of ST (R308). -/
def stSrc (ty : Ty) (d : Operand) : Bool :=
  match ty with
  | .b64 => d.wideDst || (match d with | .const _ => true | _ => false)
  | .b128 => d.wideQuad
  | _ => d.src

/-- Address operands of R306 (B is ZERO with `.scr`). -/
def addrOk (scr : Bool) (a b : Operand) : Bool :=
  a.addr && (if scr then b == .zero else b.addr)

/-- The data or compare operand of an atomic (R312). -/
def atomSrc (ty : Ty) (x : Operand) : Bool := if ty == .b64 then x.wideSrc else x.src

/-- The destination of ATOM (R312). -/
def atomDst (ty : Ty) (d : Operand) : Bool :=
  d == .zero || (if ty == .b64 then d.wideV else d.laneDst)

/-- Operands of an ATOM form. -/
def atomOk (m : MemMod) (d a b x : Operand) : Bool := addrOk m.scr a b && atomDst m.ty d && atomSrc m.ty x
/-- Operands of a RED form. -/
def redOperands (m : MemMod) (a b x : Operand) : Bool := addrOk m.scr a b && atomSrc m.ty x

/-- Two sources and a destination of R247. -/
def op2 (d a b : Operand) : Bool := d.dst && a.src && b.src && kRule d [a, b]
/-- Three sources and a destination of R247. -/
def op3 (d a b c : Operand) : Bool := d.dst && a.src && b.src && c.src && kRule d [a, b, c]
/-- One source and a destination of R247. -/
def op1 (d a : Operand) : Bool := d.dst && a.src && kRule d [a]

/-- The operands of MOV (R257). -/
def movOk (ty : Ty) (d a : Operand) : Bool :=
  match ty with
  | .b64 => d.wideDst && (a.wideDst || (match a with | .const _ => true | _ => false)) && kRule d [a]
  | .b128 => d.wideQuad && a.wideQuad && kRule d [a]
  | _ => (d.dst || d.isFlag || (match d with | .x _ => true | _ => false)) && (a.src || a.isCondFlag || a.isJ) && kRule d [a]

/-- Registers of a queue record (R322). -/
def recRegs (rs : BitVec 2) : Nat := 2 * 2 ^ rs.toNat

/-- R222 step 4: every operand lies in a space the entry accepts, pairs and groups are aligned, and R174 and R219 hold. -/
def operandsOk : Instr → Bool
  | .srd _ _ d => d.pair
  | .swr _ n a => sregWritable n == some true && a.uniform64
  | .lnch _ d a => (match d with | .v _ | .o _ | .k _ => true | _ => false) && a.kPair
  | .brc _ c _ | .ifI _ c _ | .breakI _ c _ | .cont _ c _ => c.isCond
  | .jmask _ d => d.isJ
  | .join _ a => a.isJ
  | .calli _ _ a b => (a.dst || a == .zero) && (b.dst || b == .zero)
  | .twait _ _ a => a.uniform64
  | .tfirst _ d a => d.dst && a.uniform64
  | .barWait _ _ _ a => a.uniform
  | .barph _ _ _ d => d.dst || d.isFlag
  | .iadd _ _ _ d a b | .isub _ _ _ d a b => op2 d a b
  | .imul _ _ d a b | .imulh _ _ d a b | .imin _ _ d a b | .imax _ _ d a b => op2 d a b
  | .imad _ _ _ d a b c => op3 d a b c
  | .iaddc _ _ _ d a b c => d.laneDst && a.src && b.src && c.isFlag
  | .iadd64 _ _ d a b => d.wideDst && a.wideSrc && b.wideSrc && kRule d [a, b]
  | .imad64 _ _ d a b c => d.wideDst && a.src && b.src && c.wideSrc && kRule d [a, b, c]
  | .iabs _ _ _ d a => op1 d a
  | .icmp _ _ _ d a b | .fcmp _ _ _ _ d a b => (d.dst || d.isFlag) && a.src && b.src && kRule d [a, b]
  | .isel _ _ d a b c => d.laneDst && a.src && b.src && c.isCondFlag
  | .idot4 _ _ _ d a b c => op3 d a b c
  | .mov _ ty d a => movOk ty d a
  | .movi _ ty d _ => if ty == .b64 then d.wideDst else d.dst
  | .shl _ _ d a b | .shr _ _ d a b | .sar _ _ d a b | .rotl _ _ d a b | .and _ _ d a b | .or _ _ d a b
  | .xor _ _ d a b | .andn _ _ d a b | .bfx _ _ d a b | .bilv _ _ d a b => op2 d a b
  | .fshl _ _ d a b c | .fshr _ _ d a b c | .bfi _ _ d a b c | .prmt _ _ d a b c => op3 d a b c
  | .not _ _ d a | .clz _ _ d a | .ctz _ _ d a | .popc _ _ d a | .brev _ _ d a | .bdil _ _ d a => op1 d a
  | .fadd _ _ _ d a b | .fsub _ _ _ d a b | .fmul _ _ _ d a b | .fmin _ _ _ d a b | .fmax _ _ _ d a b => op2 d a b
  | .ffma _ _ _ d a b c | .hfma2 _ _ _ d a b c => op3 d a b c
  | .frint _ _ _ d a => op1 d a
  | .hadd2 _ _ _ d a b | .hmul2 _ _ _ d a b | .hmin2 _ _ _ d a b | .hmax2 _ _ _ d a b => op2 d a b
  | .frcp _ _ d a | .frsq _ _ d a | .fsqrt _ _ d a | .fex2 _ _ d a | .flg2 _ _ d a | .fsin _ _ d a
  | .fcos _ _ d a => op1 d a
  | .cvt _ _ _ _ d a => op1 d a
  | .pack8 _ _ _ d a b c => op3 d a b c
  | .unpk8 _ _ _ d a => op1 d a
  | .packd _ _ d a b => op2 d a b
  | .shfl _ ty _ d a b => (if ty == .b64 then d.wideV && a.wideV else d.laneDst && a.src) && b.src
  | .rdlane _ ty d a b => (if ty == .b64 then d.wideDst && a.wideSrc else d.dst && a.src) && b.uniform
  | .vote _ _ m d a => (match d with | .v _ | .o _ | .k _ => true | .f _ => m != .ballot | _ => false) && a.isCondFlag
  | .matchI _ ty d a => d.laneDst && (if ty == .b64 then a.wideV else a.src)
  | .redw _ _ _ d a => d.dst && a.src
  | .scanw _ _ _ _ d a => d.laneDst && a.src
  | .ddx _ _ d a | .ddy _ _ d a => d.laneDst && a.src
  | .quad _ _ _ _ d a => d.laneDst && a.src
  | .ld _ m d a b _ => addrOk m.scr a b && ldDst m.ty d (a.addrUniform && b.addrUniform)
  | .st _ m d a b _ => addrOk m.scr a b && stSrc m.ty d
  | .ldp _ ty _ _ d a => a.src && ldDst ty d a.uniform
  | .discard _ d a b _ => addrOk false a b && d.lenSrc
  | .pref _ _ a b _ => addrOk false a b
  | .atomAdd _ m d a b _ x | .atomMin _ m d a b _ x | .atomMax _ m d a b _ x | .atomAnd _ m d a b _ x
  | .atomOr _ m d a b _ x | .atomXor _ m d a b _ x | .atomExch _ m d a b _ x | .atomFaddF32 _ m d a b _ x
  | .atomFaddB2 _ m d a b _ x => atomOk m d a b x
  | .atomCas _ m d a b _ c x => atomOk m d a b x && atomSrc m.ty c
  | .redAdd _ m a b _ x | .redMin _ m a b _ x | .redMax _ m a b _ x | .redAnd _ m a b _ x | .redOr _ m a b _ x
  | .redXor _ m a b _ x | .redFaddF32 _ m a b _ x | .redFaddB2 _ m a b _ x => redOperands m a b x
  | .copy _ dscr sscr d a b _ =>
    (if dscr then d.uniform else d.uniform64) && (if sscr then a.uniform else a.uniform64) && b.uniform
  | .copym _ d a b _ _ _ => d.uniform && a.uniform64 && b.uniform
  | .gather _ iscr d a b _ _ _ => d.uniform && a.uniform64 && (if iscr then b.uniform else b.uniform64)
  | .coll _ _ _ sscr dscr d a b _ _ =>
    (if dscr then d.uniform else d.uniform64) && (if sscr then a.uniform else a.uniform64) && b.uniform
  | .qenq _ rs d b vr | .qdeq _ rs d b vr => d.statusDst && b.uniform && vr.vMult (min (recRegs rs) 4)
  | .qstat _ d b => (match d with | .v _ | .o _ | .k _ => true | _ => false) && b.uniform
  | .spawn _ d a b => d.statusDst && a.kPair && b.vMult 4
  | .osclook _ _ d a => d.vMult 4 && a.pair
  | .oscwait _ d a b => d.vMult 4 && (match a with | .v _ | .o _ | .k _ => true | _ => false) && b.uniform
  | .oscfill _ d a => d.statusDst && (match a with | .v _ | .o _ | .k _ => true | _ => false)
  | .oscinv _ a => (match a with | .k _ | .const _ => true | _ => false)
  | .oscprov _ d a => d.laneDst && a.pair
  | .tex _ _ d a b vg | .texqLod _ _ d a b vg => d.vMult 4 && a.kPair && b.vMult 4 && vg.vMult 4
  | .texqSize _ d a b => d.vMult 4 && a.kPair && b.lenSrc
  | .trace _ a _ | .matev _ a _ => a.uniform64
  | .vemit _ a b dr => a.vMult 4 && b.lenSrc && dr.uniform
  | .tdef _ d a => d.isT && (match a with | .k n => n.val % 8 == 0 | _ => false)
  | .tqry _ d a => (match d with | .k n => n.val % 8 == 0 | _ => false) && a.isT
  | .tmma _ _ d a b _ | .tmmd _ _ d a b _ => d.isT && a.isT && b.isT
  | .tvmm _ d a b _ tw => d.isT && a.isT && b.vMult 2 && tw.isT
  | .tmms _ d a b _ => d.isT && a.isT && b.isT
  | .tzero _ d => d.isT
  | .taccld _ d a _ => d.isT && a.isT
  | .taccst _ _ d a b _ sc => d.isT && a.isT && (b.isT || b == .zero) && (match sc with | .k _ | .const _ => true | _ => false)
  | .tfft _ d a _ | .tift _ d a _ | .xfm _ _ d a _ | .xchain _ _ d a _ => d.isT && a.isT
  | .tabld _ a _ _ => a.kPair
  | _ => true

/-- A valid instruction of R222 step 5; every event is well formed. -/
def wellFormed (i : Instr) : Bool := i.encodable && i.operandsOk

/-- The events of the opcode table, which no word encodes. -/
def isEvent : Instr → Bool
  | .counterDone .. | .engineCompletion .. | .failedOperation .. | .copymArrival .. | .faultRecordPost
  | .faultrespRetry .. | .faultrespCancel .. | .tlbinvEverything | .tlbinvVm .. | .tlbinvAsid .. | .tlbinvVaRange ..
  | .tlbinvContext .. | .tlbinvErrClear | .tlbinvDone | .priResponse .. | .ttctlCommit | .timetableCopy | .classIdle ..
  | .nocFlitReceive .. | .nocRetry .. | .patrolScrub .. | .hbmRefresh .. | .cmpctlSync | .cmpctlSyncDone
  | .tableSlotReplace .. | .landingEnable .. | .landingInitDone | .landingDisable .. | .landingDisableDone
  | .oscwaitTimeout .. | .rayTimeout .. | .rayRelookup .. | .queuePointerWrite .. | .queueCommit .. | .collJoinTimeout ..
  | .collGroupWrite .. | .lqTailWrite .. | .lqctlEnable .. | .launchAccept .. | .blockPlace .. | .gangReserve ..
  | .blockEnd .. | .gridEnd .. | .berthSail .. | .sailedWavePlace .. | .governorEvaluation .. | .govctlEnable ..
  | .govctlDisable .. | .spillWrite .. | .refill .. | .frameRecordFetch .. | .preemptRequest .. | .preemptSaveDone ..
  | .serviceHandlerStart .. | .resume .. | .killwave .. | .killblock .. | .windowWsync .. | .rangeLockEntryClear ..
  | .landingSetSelect .. | .reservationGrant .. | .reservationPromote .. | .triangleRasterise .. | .rasterDone ..
  | .clusterFence .. | .channelRetirement .. | .deviceReset | .fatalError .. | .hostBar2Access .. | .izlynPeerAccess ..
  | .izlynLinkTraining .. | .umcorFailover | .attest .. | .identity .. | .image .. | .activate .. | .dump ..
  | .mailboxReply .. | .errorLogRecord | .errorAggregation | .registerWrite .. | .translationWalkDone ..
  | .pcieLinkTraining .. | .pciePortError .. | .devicePowerOff => true
  | _ => false

end Instr
end Sys2Proof
end

