-- ==== Sys2Proof/Decode.lean ====
section
/-! DEFINITION. Instruction words (R214-R226): the fields of a word, the decoder with its fates (R222), the encoder, and
the fixed entry point `decodeTableWord`. -/
namespace Sys2Proof

/-- `len` bits of `w` from bit `lo` (R4). -/
def slice {n : Nat} (w : BitVec n) (lo len : Nat) : BitVec len := w.extractLsb' lo len

/-- A Bool as a bit. -/
def boolBit (b : Bool) : Nat := if b then 1 else 0

/-- The eight fields of an instruction word (R214). -/
structure Fields where
  op : BitVec 12
  g : BitVec 4 := 0
  d : BitVec 10 := 0
  a : BitVec 10 := 0
  b : BitVec 10 := 0
  imm : BitVec 32 := 0
  mod : BitVec 10 := 0
  hint : BitVec 8 := 0
  deriving DecidableEq, Repr

/-- The fields of a word (R214). -/
def Fields.ofWord (w : IWord) : Fields where
  op := slice w 84 12
  g := slice w 80 4
  d := slice w 70 10
  a := slice w 60 10
  b := slice w 50 10
  imm := slice w 18 32
  mod := slice w 8 10
  hint := slice w 0 8

/-- The word of some fields (R214). -/
def Fields.toWord (f : Fields) : IWord :=
  f.op ++ f.g ++ f.d ++ f.a ++ f.b ++ f.imm ++ f.mod ++ f.hint

/-- Code of a guard (R215). -/
def Guard.code : Guard → BitVec 4
  | .always => 0
  | .ifTrue n => .ofNat 4 (1 + n.val)
  | .ifFalse n => .ofNat 4 (5 + n.val)

/-- The guard of a code; 9-15 are illegal (R215). -/
def Guard.ofCode (c : BitVec 4) : Option Guard :=
  match c.toNat with
  | 0 => some .always
  | 1 => some (.ifTrue 0)
  | 2 => some (.ifTrue 1)
  | 3 => some (.ifTrue 2)
  | 4 => some (.ifTrue 3)
  | 5 => some (.ifFalse 0)
  | 6 => some (.ifFalse 1)
  | 7 => some (.ifFalse 2)
  | 8 => some (.ifFalse 3)
  | _ => none

/-- Code of the hints (R216). -/
def Hint.code (h : Hint) : BitVec 8 :=
  .ofNat 8 (128 * boolBit h.yield + 16 * h.stall.val + 8 * boolBit h.reuseA + 4 * boolBit h.reuseB)

/-- The hints of a code; bits [1:0] are reserved (R216). -/
def Hint.ofCode (c : BitVec 8) : Option Hint :=
  if slice c 0 2 = 0#2 then
    some ⟨slice c 7 1 == 1#1, (slice c 4 3).toFin, slice c 3 1 == 1#1, slice c 2 1 == 1#1⟩
  else none

/-- Code of an operand (R217). -/
def Operand.code : Operand → BitVec 10
  | .v n => .ofNat 10 n.val
  | .k n => .ofNat 10 (0x080 + n.val)
  | .l n => .ofNat 10 (0x0C0 + n.val)
  | .o n => .ofNat 10 (0x0C8 + n.val)
  | .zero => 0x0D0
  | .laneid => 0x0D1
  | .f n => .ofNat 10 (0x0E0 + n.val)
  | .nf n => .ofNat 10 (0x0E4 + n.val)
  | .j n => .ofNat 10 (0x0E8 + n.val)
  | .x n => .ofNat 10 (0x0F0 + n.val)
  | .vx n c => .ofNat 10 (0x100 + 64 * n.val + c.val)
  | .const n => .ofNat 10 (0x200 + n.val)
  | .t n => .ofNat 10 (0x240 + n.val)

/-- The operand of a code; the codes R217 reserves have none. -/
def Operand.ofCode (c : BitVec 10) : Option Operand :=
  let n := c.toNat
  if h : n < 0x80 then some (.v ⟨n, h⟩)
  else if n < 0xC0 then some (.k (Fin.ofNat 64 n))
  else if n < 0xC4 then some (.l (Fin.ofNat 4 n))
  else if n < 0xC8 then none
  else if n < 0xD0 then some (.o (Fin.ofNat 8 n))
  else if n = 0xD0 then some .zero
  else if n = 0xD1 then some .laneid
  else if n < 0xE0 then none
  else if n < 0xE4 then some (.f (Fin.ofNat 4 n))
  else if n < 0xE8 then some (.nf (Fin.ofNat 4 n))
  else if n < 0xF0 then some (.j (Fin.ofNat 8 n))
  else if n < 0xF4 then some (.x (Fin.ofNat 4 n))
  else if n < 0x100 then none
  else if n < 0x200 then some (.vx (Fin.ofNat 4 (n / 64)) (Fin.ofNat 64 n))
  else if n < 0x240 then some (.const (Fin.ofNat 64 n))
  else if n < 0x280 then some (.t (Fin.ofNat 64 n))
  else none

/-- Code of a `Ty` (R221). -/
def Ty.code : Ty → BitVec 4
  | .i32 => 0
  | .n32 => 1
  | .i16x2 => 2
  | .n16x2 => 3
  | .f32 => 4
  | .h2 => 5
  | .b2 => 6
  | .i8 => 7
  | .n8 => 8
  | .i16 => 9
  | .n16 => 10
  | .b64 => 11
  | .b128 => 12
  | .f8a => 13
  | .f8b => 14
  | .d2p8 => 15

/-- The `Ty` of a code (R221). -/
def Ty.ofCode (c : BitVec 4) : Option Ty :=
  match c.toNat with
  | 0 => some .i32
  | 1 => some .n32
  | 2 => some .i16x2
  | 3 => some .n16x2
  | 4 => some .f32
  | 5 => some .h2
  | 6 => some .b2
  | 7 => some .i8
  | 8 => some .n8
  | 9 => some .i16
  | 10 => some .n16
  | 11 => some .b64
  | 12 => some .b128
  | 13 => some .f8a
  | 14 => some .f8b
  | 15 => some .d2p8
  | _ => none

/-- Code of a `Scope` (R111). -/
def Scope.code : Scope → BitVec 3
  | .wave => 0
  | .block => 1
  | .cluster => 2
  | .device => 3
  | .system => 4

/-- The `Scope` of a code (R111). -/
def Scope.ofCode (c : BitVec 3) : Option Scope :=
  match c.toNat with
  | 0 => some .wave
  | 1 => some .block
  | 2 => some .cluster
  | 3 => some .device
  | 4 => some .system
  | _ => none

/-- Code of a `Cmp` (R254). -/
def Cmp.code : Cmp → BitVec 3
  | .eq => 0
  | .ne => 1
  | .lt => 2
  | .le => 3
  | .gt => 4
  | .ge => 5
  | .num => 6
  | .nan => 7

/-- The `Cmp` of a code (R254). -/
def Cmp.ofCode (c : BitVec 3) : Option Cmp :=
  match c.toNat with
  | 0 => some .eq
  | 1 => some .ne
  | 2 => some .lt
  | 3 => some .le
  | 4 => some .gt
  | 5 => some .ge
  | 6 => some .num
  | 7 => some .nan
  | _ => none

/-- Code of a `RoundDir` (R266). -/
def RoundDir.code : RoundDir → BitVec 2
  | .rne => 0
  | .rdn => 1
  | .rup => 2
  | .rtz => 3

/-- The `RoundDir` of a code (R266). -/
def RoundDir.ofCode (c : BitVec 2) : Option RoundDir :=
  match c.toNat with
  | 0 => some .rne
  | 1 => some .rdn
  | 2 => some .rup
  | 3 => some .rtz
  | _ => none

/-- Code of a `ShflMode` (R272). -/
def ShflMode.code : ShflMode → BitVec 2
  | .idx => 0
  | .up => 1
  | .down => 2
  | .xor => 3

/-- The `ShflMode` of a code (R272). -/
def ShflMode.ofCode (c : BitVec 2) : Option ShflMode :=
  match c.toNat with
  | 0 => some .idx
  | 1 => some .up
  | 2 => some .down
  | 3 => some .xor
  | _ => none

/-- Code of a `VoteMode` (R274). -/
def VoteMode.code : VoteMode → BitVec 2
  | .all => 0
  | .any => 1
  | .ballot => 2
  | .eq => 3

/-- The `VoteMode` of a code (R274). -/
def VoteMode.ofCode (c : BitVec 2) : Option VoteMode :=
  match c.toNat with
  | 0 => some .all
  | 1 => some .any
  | 2 => some .ballot
  | 3 => some .eq
  | _ => none

/-- Code of a `RedOp` (R276). -/
def RedOp.code : RedOp → BitVec 3
  | .add => 0
  | .min => 1
  | .max => 2
  | .and => 3
  | .or => 4
  | .xor => 5

/-- The `RedOp` of a code (R276). -/
def RedOp.ofCode (c : BitVec 3) : Option RedOp :=
  match c.toNat with
  | 0 => some .add
  | 1 => some .min
  | 2 => some .max
  | 3 => some .and
  | 4 => some .or
  | 5 => some .xor
  | _ => none

/-- Code of a `QuadMode` (R279). -/
def QuadMode.code : QuadMode → BitVec 2
  | .bcast => 0
  | .swapx => 1
  | .swapy => 2
  | .swapd => 3

/-- The `QuadMode` of a code (R279). -/
def QuadMode.ofCode (c : BitVec 2) : Option QuadMode :=
  match c.toNat with
  | 0 => some .bcast
  | 1 => some .swapx
  | 2 => some .swapy
  | 3 => some .swapd
  | _ => none

/-- Code of a `BarLevel` (R293). -/
def BarLevel.code : BarLevel → BitVec 2
  | .bb => 0
  | .cb => 1
  | .gb => 2

/-- The `BarLevel` of a code (R293). -/
def BarLevel.ofCode (c : BitVec 2) : Option BarLevel :=
  match c.toNat with
  | 0 => some .bb
  | 1 => some .cb
  | 2 => some .gb
  | _ => none

/-- Code of a `CollOp` (R321). -/
def CollOp.code : CollOp → BitVec 2
  | .allsum => 0
  | .sumto => 1
  | .bcast => 2

/-- The `CollOp` of a code (R321). -/
def CollOp.ofCode (c : BitVec 2) : Option CollOp :=
  match c.toNat with
  | 0 => some .allsum
  | 1 => some .sumto
  | 2 => some .bcast
  | _ => none

/-- Code of a `Act` (R340). -/
def Act.code : Act → BitVec 3
  | .none => 0
  | .relu => 1
  | .relu6 => 2
  | .lrelu => 3
  | .clamp1 => 4

/-- The `Act` of a code (R340). -/
def Act.ofCode (c : BitVec 3) : Option Act :=
  match c.toNat with
  | 0 => some .none
  | 1 => some .relu
  | 2 => some .relu6
  | 3 => some .lrelu
  | 4 => some .clamp1
  | _ => Option.none

/-- Code of an ORD (R220). -/
def Ord4.code : Ord4 → BitVec 2
  | .plain => 0
  | .acq => 1
  | .rel => 2
  | .ar => 3

/-- The ORD of a code (R220). -/
def Ord4.ofCode (c : BitVec 2) : Ord4 :=
  match c.toNat with
  | 0 => .plain
  | 1 => .acq
  | 2 => .rel
  | _ => .ar

/-- The memory layout of MOD: TYPE, ORD, SPACE, SCOPE (R220). -/
def MemMod.code (m : MemMod) : BitVec 10 :=
  .ofNat 10 (64 * m.ty.code.toNat + 16 * m.ord.code.toNat + 8 * boolBit m.scr + m.scope.code.toNat)

/-- The memory layout of a MOD; SCOPE 5-7 is illegal (R111, R220). -/
def MemMod.ofCode (c : BitVec 10) : Option MemMod := do
  let ty ← Ty.ofCode (slice c 6 4)
  let scope ← Scope.ofCode (slice c 0 3)
  some ⟨ty, Ord4.ofCode (slice c 4 2), slice c 3 1 == 1#1, scope⟩

/-- SUB[5:0] of the modifiers of R265. -/
def FMod.code (m : FMod) : BitVec 6 :=
  .ofNat 6 (boolBit m.nega + 2 * boolBit m.negb + 4 * boolBit m.negc + 8 * boolBit m.absa + 16 * boolBit m.absb
    + 32 * boolBit m.sat)

/-- The modifiers of a SUB (R265). -/
def FMod.ofCode (c : BitVec 6) : Option FMod :=
  some ⟨slice c 0 1 == 1#1, slice c 1 1 == 1#1, slice c 2 1 == 1#1, slice c 3 1 == 1#1, slice c 4 1 == 1#1,
    slice c 5 1 == 1#1⟩

/-- The fields of one opcode that are not reserved (R214, R280): whether the guard must be 0 (R196), whether D, A and B
are used, and the bits of IMM and MOD that some entry defines. -/
structure Layout where
  guard0 : Bool
  d : Bool
  a : Bool
  b : Bool
  imm : BitVec 32
  mod : BitVec 10
  deriving DecidableEq, Repr

/-- Layouts of group 0x0, system (R226). -/
def layout0 (lo : Nat) : Option Layout :=
  match lo with
  | 0x01 => some ⟨false, false, false, false, 0x0, 0x0⟩
  | 0x02 => some ⟨false, false, false, false, 0xFFFF, 0x0⟩
  | 0x03 => some ⟨false, false, false, false, 0xFFFF, 0x0⟩
  | 0x04 => some ⟨false, false, false, false, 0x0, 0x0⟩
  | 0x10 => some ⟨false, true, false, false, 0xFF, 0x0⟩
  | 0x11 => some ⟨false, false, true, false, 0xFF, 0x0⟩
  | 0x20 => some ⟨false, false, false, false, 0x0, 0x7⟩
  | 0x21 => some ⟨false, false, false, false, 0x0, 0x0⟩
  | 0x30 => some ⟨false, true, true, false, 0x0, 0x0⟩
  | _ => none

/-- Layouts of group 0x1, branch and divergence (R226). -/
def layout1 (lo : Nat) : Option Layout :=
  match lo with
  | 0x00 => some ⟨true, false, false, false, 0xFFFFFFFF, 0x0⟩
  | 0x01 => some ⟨true, false, true, false, 0xFFFFFFFF, 0x0⟩
  | 0x02 => some ⟨true, true, false, false, 0x0, 0x0⟩
  | 0x03 => some ⟨true, false, true, false, 0x0, 0x0⟩
  | 0x10 => some ⟨true, false, true, false, 0xFFFFFFFF, 0x0⟩
  | 0x11 => some ⟨true, false, false, false, 0xFFFFFFFF, 0x0⟩
  | 0x12 => some ⟨true, false, false, false, 0x0, 0x0⟩
  | 0x13 => some ⟨true, false, false, false, 0x0, 0x0⟩
  | 0x14 => some ⟨true, false, true, false, 0x3F, 0x0⟩
  | 0x15 => some ⟨true, false, true, false, 0x3F, 0x0⟩
  | 0x16 => some ⟨true, false, false, false, 0xFFFFFFFF, 0x0⟩
  | 0x20 => some ⟨false, false, false, false, 0xFFFFFFFF, 0xF8⟩
  | 0x21 => some ⟨false, false, true, true, 0x0, 0xF8⟩
  | 0x22 => some ⟨false, false, false, false, 0x0, 0x0⟩
  | 0x30 => some ⟨false, false, false, false, 0x0, 0x0⟩
  | _ => none

/-- Layouts of group 0x2, waits and barriers (R226). -/
def layout2 (lo : Nat) : Option Layout :=
  match lo with
  | 0x00 => some ⟨false, false, false, false, 0xFFFFFF, 0x0⟩
  | 0x01 => some ⟨false, false, true, false, 0x0, 0x8⟩
  | 0x02 => some ⟨false, true, true, false, 0x0, 0x0⟩
  | 0x10 => some ⟨false, false, true, false, 0x3F, 0x30⟩
  | 0x11 => some ⟨false, true, false, false, 0x3F, 0x0⟩
  | _ => none

/-- Layouts of group 0x3, integer (R226). -/
def layout3 (lo : Nat) : Option Layout :=
  match lo with
  | 0x00 => some ⟨false, true, true, true, 0x0, 0x3C1⟩
  | 0x01 => some ⟨false, true, true, true, 0x3FF, 0x3C1⟩
  | 0x02 => some ⟨false, true, true, true, 0x0, 0x3C1⟩
  | 0x03 => some ⟨false, true, true, true, 0x0, 0x3C0⟩
  | 0x04 => some ⟨false, true, true, true, 0x0, 0x3C0⟩
  | 0x05 => some ⟨false, true, true, true, 0x3FF, 0x3C1⟩
  | 0x06 => some ⟨false, true, true, true, 0x0, 0x3C0⟩
  | 0x07 => some ⟨false, true, true, true, 0x3FF, 0x3C0⟩
  | 0x08 => some ⟨false, true, true, true, 0x0, 0x3C0⟩
  | 0x09 => some ⟨false, true, true, true, 0x0, 0x3C0⟩
  | 0x0A => some ⟨false, true, true, false, 0x0, 0x3C1⟩
  | 0x0B => some ⟨false, true, true, true, 0x0, 0x3C7⟩
  | 0x0C => some ⟨false, true, true, true, 0x3FF, 0x3C0⟩
  | 0x0D => some ⟨false, true, true, true, 0x3FF, 0x3C1⟩
  | 0x10 => some ⟨false, true, true, false, 0x0, 0x3C0⟩
  | 0x11 => some ⟨false, true, false, false, 0xFFFFFFFF, 0x3C0⟩
  | _ => none

/-- Layouts of group 0x4, bit (R226). -/
def layout4 (lo : Nat) : Option Layout :=
  match lo with
  | 0x00 => some ⟨false, true, true, true, 0x0, 0x3C0⟩
  | 0x01 => some ⟨false, true, true, true, 0x0, 0x3C0⟩
  | 0x02 => some ⟨false, true, true, true, 0x0, 0x3C0⟩
  | 0x03 => some ⟨false, true, true, true, 0x0, 0x3C0⟩
  | 0x04 => some ⟨false, true, true, true, 0x3FF, 0x3C0⟩
  | 0x05 => some ⟨false, true, true, true, 0x3FF, 0x3C0⟩
  | 0x10 => some ⟨false, true, true, true, 0x0, 0x3C0⟩
  | 0x11 => some ⟨false, true, true, true, 0x0, 0x3C0⟩
  | 0x12 => some ⟨false, true, true, true, 0x0, 0x3C0⟩
  | 0x13 => some ⟨false, true, true, true, 0x0, 0x3C0⟩
  | 0x14 => some ⟨false, true, true, false, 0x0, 0x3C0⟩
  | 0x20 => some ⟨false, true, true, true, 0x0, 0x3C0⟩
  | 0x21 => some ⟨false, true, true, true, 0x3FF, 0x3C0⟩
  | 0x22 => some ⟨false, true, true, false, 0x0, 0x3C0⟩
  | 0x23 => some ⟨false, true, true, false, 0x0, 0x3C0⟩
  | 0x24 => some ⟨false, true, true, false, 0x0, 0x3C0⟩
  | 0x25 => some ⟨false, true, true, false, 0x0, 0x3C0⟩
  | 0x26 => some ⟨false, true, true, true, 0x0, 0x3C0⟩
  | 0x27 => some ⟨false, true, true, false, 0x0, 0x3C0⟩
  | 0x28 => some ⟨false, true, true, true, 0x3FF, 0x3C0⟩
  | _ => none

/-- Layouts of group 0x5, FP32 (R226). -/
def layout5 (lo : Nat) : Option Layout :=
  match lo with
  | 0x00 => some ⟨false, true, true, true, 0x0, 0x3FF⟩
  | 0x01 => some ⟨false, true, true, true, 0x0, 0x3FF⟩
  | 0x02 => some ⟨false, true, true, true, 0x0, 0x3FF⟩
  | 0x03 => some ⟨false, true, true, true, 0x3FF, 0x3FF⟩
  | 0x04 => some ⟨false, true, true, true, 0x0, 0x3FF⟩
  | 0x05 => some ⟨false, true, true, true, 0x0, 0x3FF⟩
  | 0x06 => some ⟨false, true, true, true, 0x0, 0x3CF⟩
  | 0x07 => some ⟨false, true, true, false, 0x0, 0x3C3⟩
  | _ => none

/-- Layouts of group 0x6, packed 16-bit (R226). -/
def layout6 (lo : Nat) : Option Layout :=
  match lo with
  | 0x00 => some ⟨false, true, true, true, 0x0, 0x3FF⟩
  | 0x01 => some ⟨false, true, true, true, 0x0, 0x3FF⟩
  | 0x02 => some ⟨false, true, true, true, 0x3FF, 0x3FF⟩
  | 0x03 => some ⟨false, true, true, true, 0x0, 0x3FF⟩
  | 0x04 => some ⟨false, true, true, true, 0x0, 0x3FF⟩
  | _ => none

/-- Layouts of group 0x7, transcendental and conversion (R226). -/
def layout7 (lo : Nat) : Option Layout :=
  match lo with
  | 0x00 => some ⟨false, true, true, false, 0x0, 0x3C0⟩
  | 0x01 => some ⟨false, true, true, false, 0x0, 0x3C0⟩
  | 0x02 => some ⟨false, true, true, false, 0x0, 0x3C0⟩
  | 0x03 => some ⟨false, true, true, false, 0x0, 0x3C0⟩
  | 0x04 => some ⟨false, true, true, false, 0x0, 0x3C0⟩
  | 0x05 => some ⟨false, true, true, false, 0x0, 0x3C0⟩
  | 0x06 => some ⟨false, true, true, false, 0x0, 0x3C0⟩
  | 0x10 => some ⟨false, true, true, false, 0x0, 0x3DF⟩
  | 0x11 => some ⟨false, true, true, true, 0x3FF, 0x3C1⟩
  | 0x12 => some ⟨false, true, true, false, 0x0, 0x3C3⟩
  | 0x13 => some ⟨false, true, true, true, 0x0, 0x3C0⟩
  | _ => none

/-- Layouts of group 0x8, lane (R226). -/
def layout8 (lo : Nat) : Option Layout :=
  match lo with
  | 0x00 => some ⟨false, true, true, true, 0x0, 0x3C3⟩
  | 0x01 => some ⟨false, true, true, false, 0x0, 0x3C3⟩
  | 0x02 => some ⟨false, true, true, false, 0x0, 0x3C0⟩
  | 0x03 => some ⟨false, true, true, false, 0x0, 0x3C7⟩
  | 0x04 => some ⟨false, true, true, false, 0x0, 0x3CF⟩
  | 0x05 => some ⟨false, true, true, false, 0x0, 0x3C0⟩
  | 0x06 => some ⟨false, true, true, false, 0x0, 0x3C0⟩
  | 0x07 => some ⟨false, true, true, false, 0x0, 0x3CF⟩
  | 0x08 => some ⟨false, true, true, true, 0x0, 0x3C0⟩
  | _ => none

/-- Layouts of group 0x9, load and store (R226). -/
def layout9 (lo : Nat) : Option Layout :=
  match lo with
  | 0x00 => some ⟨false, true, true, true, 0xFFFFFFFF, 0x3FF⟩
  | 0x01 => some ⟨false, true, true, true, 0xFFFFFFFF, 0x3FF⟩
  | 0x02 => some ⟨false, true, true, false, 0xFFFFFFFF, 0x3C0⟩
  | 0x10 => some ⟨false, true, true, true, 0xFFFFFFFF, 0x0⟩
  | 0x11 => some ⟨false, false, true, true, 0xFFFFFFFF, 0x40⟩
  | _ => none

/-- Layouts of group 0xA, atomics and fences (R226). -/
def layoutA (lo : Nat) : Option Layout :=
  match lo with
  | 0x00 => some ⟨false, true, true, true, 0xFFF003FF, 0x3FF⟩
  | 0x01 => some ⟨false, true, true, true, 0xFFF003FF, 0x3FF⟩
  | 0x02 => some ⟨false, true, true, true, 0xFFF003FF, 0x3FF⟩
  | 0x03 => some ⟨false, true, true, true, 0xFFF003FF, 0x3FF⟩
  | 0x04 => some ⟨false, true, true, true, 0xFFF003FF, 0x3FF⟩
  | 0x05 => some ⟨false, true, true, true, 0xFFF003FF, 0x3FF⟩
  | 0x06 => some ⟨false, true, true, true, 0xFFF003FF, 0x3FF⟩
  | 0x07 => some ⟨false, true, true, true, 0xFFFFFFFF, 0x3FF⟩
  | 0x08 => some ⟨false, true, true, true, 0xFFF003FF, 0x3FF⟩
  | 0x09 => some ⟨false, true, true, true, 0xFFF003FF, 0x3FF⟩
  | 0x10 => some ⟨false, false, true, true, 0xFFF003FF, 0x3FF⟩
  | 0x11 => some ⟨false, false, true, true, 0xFFF003FF, 0x3FF⟩
  | 0x12 => some ⟨false, false, true, true, 0xFFF003FF, 0x3FF⟩
  | 0x13 => some ⟨false, false, true, true, 0xFFF003FF, 0x3FF⟩
  | 0x14 => some ⟨false, false, true, true, 0xFFF003FF, 0x3FF⟩
  | 0x15 => some ⟨false, false, true, true, 0xFFF003FF, 0x3FF⟩
  | 0x18 => some ⟨false, false, true, true, 0xFFF003FF, 0x3FF⟩
  | 0x19 => some ⟨false, false, true, true, 0xFFF003FF, 0x3FF⟩
  | 0x20 => some ⟨false, false, false, false, 0x0, 0x3FF⟩
  | 0x21 => some ⟨false, false, false, false, 0x0, 0x0⟩
  | 0x22 => some ⟨false, false, false, false, 0x0, 0x3FF⟩
  | _ => none

/-- Layouts of group 0xB, copies, queues, spawn (R226). -/
def layoutB (lo : Nat) : Option Layout :=
  match lo with
  | 0x00 => some ⟨false, true, true, true, 0x3F, 0x18⟩
  | 0x01 => some ⟨false, true, true, true, 0x3FFF, 0x0⟩
  | 0x02 => some ⟨false, true, true, true, 0xFFFFFFFF, 0x8⟩
  | 0x03 => some ⟨false, true, true, true, 0xFFF, 0x3FC⟩
  | 0x10 => some ⟨false, true, false, true, 0x3FF, 0x30⟩
  | 0x11 => some ⟨false, true, false, true, 0x3FF, 0x30⟩
  | 0x12 => some ⟨false, true, false, true, 0x0, 0x0⟩
  | 0x20 => some ⟨false, true, true, true, 0x0, 0x0⟩
  | _ => none

/-- Layouts of group 0xC, Landing, texture, ray, raster (R226). -/
def layoutC (lo : Nat) : Option Layout :=
  match lo with
  | 0x00 => some ⟨false, true, true, false, 0x0, 0x8⟩
  | 0x01 => some ⟨false, true, true, true, 0x0, 0x0⟩
  | 0x02 => some ⟨false, true, true, false, 0x0, 0x0⟩
  | 0x03 => some ⟨false, false, true, false, 0x0, 0x0⟩
  | 0x04 => some ⟨false, false, false, false, 0x0, 0x0⟩
  | 0x05 => some ⟨false, true, true, false, 0x0, 0x0⟩
  | 0x10 => some ⟨false, true, true, true, 0x3FF, 0x8⟩
  | 0x11 => some ⟨false, true, true, true, 0x3FF, 0x38⟩
  | 0x20 => some ⟨false, false, true, false, 0x3F, 0x0⟩
  | 0x21 => some ⟨false, false, true, false, 0x3F, 0x0⟩
  | 0x30 => some ⟨false, false, true, true, 0x3FF, 0x0⟩
  | _ => none

/-- Layouts of group 0xD, tensor (R226). -/
def layoutD (lo : Nat) : Option Layout :=
  match lo with
  | 0x00 => some ⟨false, true, true, false, 0x0, 0x0⟩
  | 0x01 => some ⟨false, true, true, false, 0x0, 0x0⟩
  | 0x10 => some ⟨false, true, true, true, 0x3F, 0x8⟩
  | 0x11 => some ⟨false, true, true, true, 0x3F, 0x8⟩
  | 0x12 => some ⟨false, true, true, true, 0xFFFF, 0x0⟩
  | 0x13 => some ⟨false, true, true, true, 0x3F, 0x0⟩
  | 0x20 => some ⟨false, true, false, false, 0x0, 0x0⟩
  | 0x21 => some ⟨false, true, true, false, 0x3F, 0x0⟩
  | 0x22 => some ⟨false, true, true, true, 0xFFFF, 0x38⟩
  | _ => none

/-- Layouts of group 0xE, transform and spectral (R226). -/
def layoutE (lo : Nat) : Option Layout :=
  match lo with
  | 0x00 => some ⟨false, true, true, false, 0x3F, 0x0⟩
  | 0x01 => some ⟨false, true, true, false, 0x3F, 0x0⟩
  | 0x10 => some ⟨false, true, true, false, 0x3F, 0x8⟩
  | 0x11 => some ⟨false, true, true, false, 0x3F, 0x38⟩
  | 0x20 => some ⟨false, false, true, false, 0x3FF, 0x0⟩
  | _ => none

/-- The instruction that the fields of an opcode of group 0x0 name; `none` for a code no entry defines. -/
def build0 (f : Fields) (h : Hdr) : Option Instr :=
  match slice f.op 0 8 |>.toNat with
  | 0x01 => do some (.nop h)
  | 0x02 => do some (.trap h (slice f.imm 0 16))
  | 0x03 => do some (.bkpt h (slice f.imm 0 16))
  | 0x04 => do some (.yieldI h)
  | 0x10 => do let d ← Operand.ofCode f.d; some (.srd h (slice f.imm 0 8) d)
  | 0x11 => do let a ← Operand.ofCode f.a; some (.swr h (slice f.imm 0 8) a)
  | 0x20 => do let scope ← Scope.ofCode (slice f.mod 0 3); some (.icinv h scope)
  | 0x21 => do some (.wsync h)
  | 0x30 => do let d ← Operand.ofCode f.d; let a ← Operand.ofCode f.a; some (.lnch h d a)
  | _ => none

/-- The instruction that the fields of an opcode of group 0x1 name; `none` for a code no entry defines. -/
def build1 (f : Fields) (h : Hdr) : Option Instr :=
  match slice f.op 0 8 |>.toNat with
  | 0x00 => do some (.bra h f.imm)
  | 0x01 => do let c ← Operand.ofCode f.a; some (.brc h c f.imm)
  | 0x02 => do let d ← Operand.ofCode f.d; some (.jmask h d)
  | 0x03 => do let a ← Operand.ofCode f.a; some (.join h a)
  | 0x10 => do let c ← Operand.ofCode f.a; some (.ifI h c f.imm)
  | 0x11 => do some (.elseI h f.imm)
  | 0x12 => do some (.endifI h)
  | 0x13 => do some (.loop h)
  | 0x14 => do let c ← Operand.ofCode f.a; some (.breakI h c (slice f.imm 0 6))
  | 0x15 => do let c ← Operand.ofCode f.a; some (.cont h c (slice f.imm 0 6))
  | 0x16 => do some (.endloop h f.imm)
  | 0x20 => do some (.call h (slice f.mod 3 5) f.imm)
  | 0x21 => do let a ← Operand.ofCode f.a; let b ← Operand.ofCode f.b; some (.calli h (slice f.mod 3 5) a b)
  | 0x22 => do some (.ret h)
  | 0x30 => do some (.exit h)
  | _ => none

/-- The instruction that the fields of an opcode of group 0x2 name; `none` for a code no entry defines. -/
def build2 (f : Fields) (h : Hdr) : Option Instr :=
  match slice f.op 0 8 |>.toNat with
  | 0x00 => do some (.waitc h (slice f.imm 0 6) (slice f.imm 6 6) (slice f.imm 12 6) (slice f.imm 18 6))
  | 0x01 => do let a ← Operand.ofCode f.a; some (.twait h (slice f.mod 3 1 == 1#1) a)
  | 0x02 => do let d ← Operand.ofCode f.d; let a ← Operand.ofCode f.a; some (.tfirst h d a)
  | 0x10 =>
    match (slice f.mod 4 2).toNat with
    | 0 => do let lvl ← BarLevel.ofCode (slice f.imm 4 2); guard (f.a = 0); some (.barArrive h lvl (slice f.imm 0 4))
    | 1 => do let lvl ← BarLevel.ofCode (slice f.imm 4 2); let a ← Operand.ofCode f.a; some (.barWait h lvl (slice f.imm 0 4) a)
    | 2 => do let lvl ← BarLevel.ofCode (slice f.imm 4 2); guard (f.a = 0); some (.barSync h lvl (slice f.imm 0 4))
    | _ => none
  | 0x11 => do let lvl ← BarLevel.ofCode (slice f.imm 4 2); let d ← Operand.ofCode f.d; some (.barph h lvl (slice f.imm 0 4) d)
  | _ => none

/-- The instruction that the fields of an opcode of group 0x3 name; `none` for a code no entry defines. -/
def build3 (f : Fields) (h : Hdr) : Option Instr :=
  match slice f.op 0 8 |>.toNat with
  | 0x00 => do let ty ← Ty.ofCode (slice f.mod 6 4); let d ← Operand.ofCode f.d; let a ← Operand.ofCode f.a; let b ← Operand.ofCode f.b; some (.iadd h ty (slice f.mod 0 1 == 1#1) d a b)
  | 0x01 => do let ty ← Ty.ofCode (slice f.mod 6 4); let d ← Operand.ofCode f.d; let a ← Operand.ofCode f.a; let b ← Operand.ofCode f.b; let c ← Operand.ofCode (slice f.imm 0 10); some (.iaddc h ty (slice f.mod 0 1 == 1#1) d a b c)
  | 0x02 => do let ty ← Ty.ofCode (slice f.mod 6 4); let d ← Operand.ofCode f.d; let a ← Operand.ofCode f.a; let b ← Operand.ofCode f.b; some (.isub h ty (slice f.mod 0 1 == 1#1) d a b)
  | 0x03 => do let ty ← Ty.ofCode (slice f.mod 6 4); let d ← Operand.ofCode f.d; let a ← Operand.ofCode f.a; let b ← Operand.ofCode f.b; some (.imul h ty d a b)
  | 0x04 => do let ty ← Ty.ofCode (slice f.mod 6 4); let d ← Operand.ofCode f.d; let a ← Operand.ofCode f.a; let b ← Operand.ofCode f.b; some (.imulh h ty d a b)
  | 0x05 => do let ty ← Ty.ofCode (slice f.mod 6 4); let d ← Operand.ofCode f.d; let a ← Operand.ofCode f.a; let b ← Operand.ofCode f.b; let c ← Operand.ofCode (slice f.imm 0 10); some (.imad h ty (slice f.mod 0 1 == 1#1) d a b c)
  | 0x06 => do let ty ← Ty.ofCode (slice f.mod 6 4); let d ← Operand.ofCode f.d; let a ← Operand.ofCode f.a; let b ← Operand.ofCode f.b; some (.iadd64 h ty d a b)
  | 0x07 => do let ty ← Ty.ofCode (slice f.mod 6 4); let d ← Operand.ofCode f.d; let a ← Operand.ofCode f.a; let b ← Operand.ofCode f.b; let c ← Operand.ofCode (slice f.imm 0 10); some (.imad64 h ty d a b c)
  | 0x08 => do let ty ← Ty.ofCode (slice f.mod 6 4); let d ← Operand.ofCode f.d; let a ← Operand.ofCode f.a; let b ← Operand.ofCode f.b; some (.imin h ty d a b)
  | 0x09 => do let ty ← Ty.ofCode (slice f.mod 6 4); let d ← Operand.ofCode f.d; let a ← Operand.ofCode f.a; let b ← Operand.ofCode f.b; some (.imax h ty d a b)
  | 0x0A => do let ty ← Ty.ofCode (slice f.mod 6 4); let d ← Operand.ofCode f.d; let a ← Operand.ofCode f.a; some (.iabs h ty (slice f.mod 0 1 == 1#1) d a)
  | 0x0B => do let ty ← Ty.ofCode (slice f.mod 6 4); let cond ← Cmp.ofCode (slice f.mod 0 3); let d ← Operand.ofCode f.d; let a ← Operand.ofCode f.a; let b ← Operand.ofCode f.b; some (.icmp h ty cond d a b)
  | 0x0C => do let ty ← Ty.ofCode (slice f.mod 6 4); let d ← Operand.ofCode f.d; let a ← Operand.ofCode f.a; let b ← Operand.ofCode f.b; let c ← Operand.ofCode (slice f.imm 0 10); some (.isel h ty d a b c)
  | 0x0D => do let ty ← Ty.ofCode (slice f.mod 6 4); let d ← Operand.ofCode f.d; let a ← Operand.ofCode f.a; let b ← Operand.ofCode f.b; let c ← Operand.ofCode (slice f.imm 0 10); some (.idot4 h ty (slice f.mod 0 1 == 1#1) d a b c)
  | 0x10 => do let ty ← Ty.ofCode (slice f.mod 6 4); let d ← Operand.ofCode f.d; let a ← Operand.ofCode f.a; some (.mov h ty d a)
  | 0x11 => do let ty ← Ty.ofCode (slice f.mod 6 4); let d ← Operand.ofCode f.d; some (.movi h ty d f.imm)
  | _ => none

/-- The instruction that the fields of an opcode of group 0x4 name; `none` for a code no entry defines. -/
def build4 (f : Fields) (h : Hdr) : Option Instr :=
  match slice f.op 0 8 |>.toNat with
  | 0x00 => do let ty ← Ty.ofCode (slice f.mod 6 4); let d ← Operand.ofCode f.d; let a ← Operand.ofCode f.a; let b ← Operand.ofCode f.b; some (.shl h ty d a b)
  | 0x01 => do let ty ← Ty.ofCode (slice f.mod 6 4); let d ← Operand.ofCode f.d; let a ← Operand.ofCode f.a; let b ← Operand.ofCode f.b; some (.shr h ty d a b)
  | 0x02 => do let ty ← Ty.ofCode (slice f.mod 6 4); let d ← Operand.ofCode f.d; let a ← Operand.ofCode f.a; let b ← Operand.ofCode f.b; some (.sar h ty d a b)
  | 0x03 => do let ty ← Ty.ofCode (slice f.mod 6 4); let d ← Operand.ofCode f.d; let a ← Operand.ofCode f.a; let b ← Operand.ofCode f.b; some (.rotl h ty d a b)
  | 0x04 => do let ty ← Ty.ofCode (slice f.mod 6 4); let d ← Operand.ofCode f.d; let a ← Operand.ofCode f.a; let b ← Operand.ofCode f.b; let c ← Operand.ofCode (slice f.imm 0 10); some (.fshl h ty d a b c)
  | 0x05 => do let ty ← Ty.ofCode (slice f.mod 6 4); let d ← Operand.ofCode f.d; let a ← Operand.ofCode f.a; let b ← Operand.ofCode f.b; let c ← Operand.ofCode (slice f.imm 0 10); some (.fshr h ty d a b c)
  | 0x10 => do let ty ← Ty.ofCode (slice f.mod 6 4); let d ← Operand.ofCode f.d; let a ← Operand.ofCode f.a; let b ← Operand.ofCode f.b; some (.and h ty d a b)
  | 0x11 => do let ty ← Ty.ofCode (slice f.mod 6 4); let d ← Operand.ofCode f.d; let a ← Operand.ofCode f.a; let b ← Operand.ofCode f.b; some (.or h ty d a b)
  | 0x12 => do let ty ← Ty.ofCode (slice f.mod 6 4); let d ← Operand.ofCode f.d; let a ← Operand.ofCode f.a; let b ← Operand.ofCode f.b; some (.xor h ty d a b)
  | 0x13 => do let ty ← Ty.ofCode (slice f.mod 6 4); let d ← Operand.ofCode f.d; let a ← Operand.ofCode f.a; let b ← Operand.ofCode f.b; some (.andn h ty d a b)
  | 0x14 => do let ty ← Ty.ofCode (slice f.mod 6 4); let d ← Operand.ofCode f.d; let a ← Operand.ofCode f.a; some (.not h ty d a)
  | 0x20 => do let ty ← Ty.ofCode (slice f.mod 6 4); let d ← Operand.ofCode f.d; let a ← Operand.ofCode f.a; let b ← Operand.ofCode f.b; some (.bfx h ty d a b)
  | 0x21 => do let ty ← Ty.ofCode (slice f.mod 6 4); let d ← Operand.ofCode f.d; let a ← Operand.ofCode f.a; let b ← Operand.ofCode f.b; let c ← Operand.ofCode (slice f.imm 0 10); some (.bfi h ty d a b c)
  | 0x22 => do let ty ← Ty.ofCode (slice f.mod 6 4); let d ← Operand.ofCode f.d; let a ← Operand.ofCode f.a; some (.clz h ty d a)
  | 0x23 => do let ty ← Ty.ofCode (slice f.mod 6 4); let d ← Operand.ofCode f.d; let a ← Operand.ofCode f.a; some (.ctz h ty d a)
  | 0x24 => do let ty ← Ty.ofCode (slice f.mod 6 4); let d ← Operand.ofCode f.d; let a ← Operand.ofCode f.a; some (.popc h ty d a)
  | 0x25 => do let ty ← Ty.ofCode (slice f.mod 6 4); let d ← Operand.ofCode f.d; let a ← Operand.ofCode f.a; some (.brev h ty d a)
  | 0x26 => do let ty ← Ty.ofCode (slice f.mod 6 4); let d ← Operand.ofCode f.d; let a ← Operand.ofCode f.a; let b ← Operand.ofCode f.b; some (.bilv h ty d a b)
  | 0x27 => do let ty ← Ty.ofCode (slice f.mod 6 4); let d ← Operand.ofCode f.d; let a ← Operand.ofCode f.a; some (.bdil h ty d a)
  | 0x28 => do let ty ← Ty.ofCode (slice f.mod 6 4); let d ← Operand.ofCode f.d; let a ← Operand.ofCode f.a; let b ← Operand.ofCode f.b; let c ← Operand.ofCode (slice f.imm 0 10); some (.prmt h ty d a b c)
  | _ => none

/-- The instruction that the fields of an opcode of group 0x5 name; `none` for a code no entry defines. -/
def build5 (f : Fields) (h : Hdr) : Option Instr :=
  match slice f.op 0 8 |>.toNat with
  | 0x00 => do let ty ← Ty.ofCode (slice f.mod 6 4); let m ← FMod.ofCode (slice f.mod 0 6); let d ← Operand.ofCode f.d; let a ← Operand.ofCode f.a; let b ← Operand.ofCode f.b; some (.fadd h ty m d a b)
  | 0x01 => do let ty ← Ty.ofCode (slice f.mod 6 4); let m ← FMod.ofCode (slice f.mod 0 6); let d ← Operand.ofCode f.d; let a ← Operand.ofCode f.a; let b ← Operand.ofCode f.b; some (.fsub h ty m d a b)
  | 0x02 => do let ty ← Ty.ofCode (slice f.mod 6 4); let m ← FMod.ofCode (slice f.mod 0 6); let d ← Operand.ofCode f.d; let a ← Operand.ofCode f.a; let b ← Operand.ofCode f.b; some (.fmul h ty m d a b)
  | 0x03 => do let ty ← Ty.ofCode (slice f.mod 6 4); let m ← FMod.ofCode (slice f.mod 0 6); let d ← Operand.ofCode f.d; let a ← Operand.ofCode f.a; let b ← Operand.ofCode f.b; let c ← Operand.ofCode (slice f.imm 0 10); some (.ffma h ty m d a b c)
  | 0x04 => do let ty ← Ty.ofCode (slice f.mod 6 4); let m ← FMod.ofCode (slice f.mod 0 6); let d ← Operand.ofCode f.d; let a ← Operand.ofCode f.a; let b ← Operand.ofCode f.b; some (.fmin h ty m d a b)
  | 0x05 => do let ty ← Ty.ofCode (slice f.mod 6 4); let m ← FMod.ofCode (slice f.mod 0 6); let d ← Operand.ofCode f.d; let a ← Operand.ofCode f.a; let b ← Operand.ofCode f.b; some (.fmax h ty m d a b)
  | 0x06 => do let ty ← Ty.ofCode (slice f.mod 6 4); let cond ← Cmp.ofCode (slice f.mod 0 3); let d ← Operand.ofCode f.d; let a ← Operand.ofCode f.a; let b ← Operand.ofCode f.b; some (.fcmp h ty (slice f.mod 3 1 == 1#1) cond d a b)
  | 0x07 => do let ty ← Ty.ofCode (slice f.mod 6 4); let dir ← RoundDir.ofCode (slice f.mod 0 2); let d ← Operand.ofCode f.d; let a ← Operand.ofCode f.a; some (.frint h ty dir d a)
  | _ => none

/-- The instruction that the fields of an opcode of group 0x6 name; `none` for a code no entry defines. -/
def build6 (f : Fields) (h : Hdr) : Option Instr :=
  match slice f.op 0 8 |>.toNat with
  | 0x00 => do let ty ← Ty.ofCode (slice f.mod 6 4); let m ← FMod.ofCode (slice f.mod 0 6); let d ← Operand.ofCode f.d; let a ← Operand.ofCode f.a; let b ← Operand.ofCode f.b; some (.hadd2 h ty m d a b)
  | 0x01 => do let ty ← Ty.ofCode (slice f.mod 6 4); let m ← FMod.ofCode (slice f.mod 0 6); let d ← Operand.ofCode f.d; let a ← Operand.ofCode f.a; let b ← Operand.ofCode f.b; some (.hmul2 h ty m d a b)
  | 0x02 => do let ty ← Ty.ofCode (slice f.mod 6 4); let m ← FMod.ofCode (slice f.mod 0 6); let d ← Operand.ofCode f.d; let a ← Operand.ofCode f.a; let b ← Operand.ofCode f.b; let c ← Operand.ofCode (slice f.imm 0 10); some (.hfma2 h ty m d a b c)
  | 0x03 => do let ty ← Ty.ofCode (slice f.mod 6 4); let m ← FMod.ofCode (slice f.mod 0 6); let d ← Operand.ofCode f.d; let a ← Operand.ofCode f.a; let b ← Operand.ofCode f.b; some (.hmin2 h ty m d a b)
  | 0x04 => do let ty ← Ty.ofCode (slice f.mod 6 4); let m ← FMod.ofCode (slice f.mod 0 6); let d ← Operand.ofCode f.d; let a ← Operand.ofCode f.a; let b ← Operand.ofCode f.b; some (.hmax2 h ty m d a b)
  | _ => none

/-- The instruction that the fields of an opcode of group 0x7 name; `none` for a code no entry defines. -/
def build7 (f : Fields) (h : Hdr) : Option Instr :=
  match slice f.op 0 8 |>.toNat with
  | 0x00 => do let ty ← Ty.ofCode (slice f.mod 6 4); let d ← Operand.ofCode f.d; let a ← Operand.ofCode f.a; some (.frcp h ty d a)
  | 0x01 => do let ty ← Ty.ofCode (slice f.mod 6 4); let d ← Operand.ofCode f.d; let a ← Operand.ofCode f.a; some (.frsq h ty d a)
  | 0x02 => do let ty ← Ty.ofCode (slice f.mod 6 4); let d ← Operand.ofCode f.d; let a ← Operand.ofCode f.a; some (.fsqrt h ty d a)
  | 0x03 => do let ty ← Ty.ofCode (slice f.mod 6 4); let d ← Operand.ofCode f.d; let a ← Operand.ofCode f.a; some (.fex2 h ty d a)
  | 0x04 => do let ty ← Ty.ofCode (slice f.mod 6 4); let d ← Operand.ofCode f.d; let a ← Operand.ofCode f.a; some (.flg2 h ty d a)
  | 0x05 => do let ty ← Ty.ofCode (slice f.mod 6 4); let d ← Operand.ofCode f.d; let a ← Operand.ofCode f.a; some (.fsin h ty d a)
  | 0x06 => do let ty ← Ty.ofCode (slice f.mod 6 4); let d ← Operand.ofCode f.d; let a ← Operand.ofCode f.a; some (.fcos h ty d a)
  | 0x10 => do let dst ← Ty.ofCode (slice f.mod 6 4); let src ← Ty.ofCode (slice f.mod 0 4); let d ← Operand.ofCode f.d; let a ← Operand.ofCode f.a; some (.cvt h dst src (slice f.mod 4 1 == 1#1) d a)
  | 0x11 => do let ty ← Ty.ofCode (slice f.mod 6 4); let d ← Operand.ofCode f.d; let a ← Operand.ofCode f.a; let b ← Operand.ofCode f.b; let c ← Operand.ofCode (slice f.imm 0 10); some (.pack8 h ty (slice f.mod 0 1 == 1#1) d a b c)
  | 0x12 => do let ty ← Ty.ofCode (slice f.mod 6 4); let d ← Operand.ofCode f.d; let a ← Operand.ofCode f.a; some (.unpk8 h ty (slice f.mod 0 2) d a)
  | 0x13 => do let ty ← Ty.ofCode (slice f.mod 6 4); let d ← Operand.ofCode f.d; let a ← Operand.ofCode f.a; let b ← Operand.ofCode f.b; some (.packd h ty d a b)
  | _ => none

/-- The instruction that the fields of an opcode of group 0x8 name; `none` for a code no entry defines. -/
def build8 (f : Fields) (h : Hdr) : Option Instr :=
  match slice f.op 0 8 |>.toNat with
  | 0x00 => do let ty ← Ty.ofCode (slice f.mod 6 4); let mode ← ShflMode.ofCode (slice f.mod 0 2); let d ← Operand.ofCode f.d; let a ← Operand.ofCode f.a; let b ← Operand.ofCode f.b; some (.shfl h ty mode d a b)
  | 0x01 => do let ty ← Ty.ofCode (slice f.mod 6 4); let mode ← VoteMode.ofCode (slice f.mod 0 2); let d ← Operand.ofCode f.d; let a ← Operand.ofCode f.a; some (.vote h ty mode d a)
  | 0x02 => do let ty ← Ty.ofCode (slice f.mod 6 4); let d ← Operand.ofCode f.d; let a ← Operand.ofCode f.a; some (.matchI h ty d a)
  | 0x03 => do let ty ← Ty.ofCode (slice f.mod 6 4); let op ← RedOp.ofCode (slice f.mod 0 3); let d ← Operand.ofCode f.d; let a ← Operand.ofCode f.a; some (.redw h ty op d a)
  | 0x04 => do let ty ← Ty.ofCode (slice f.mod 6 4); let op ← RedOp.ofCode (slice f.mod 0 3); let d ← Operand.ofCode f.d; let a ← Operand.ofCode f.a; some (.scanw h ty op (slice f.mod 3 1 == 1#1) d a)
  | 0x05 => do let ty ← Ty.ofCode (slice f.mod 6 4); let d ← Operand.ofCode f.d; let a ← Operand.ofCode f.a; some (.ddx h ty d a)
  | 0x06 => do let ty ← Ty.ofCode (slice f.mod 6 4); let d ← Operand.ofCode f.d; let a ← Operand.ofCode f.a; some (.ddy h ty d a)
  | 0x07 => do let ty ← Ty.ofCode (slice f.mod 6 4); let mode ← QuadMode.ofCode (slice f.mod 0 2); let d ← Operand.ofCode f.d; let a ← Operand.ofCode f.a; some (.quad h ty mode (slice f.mod 2 2) d a)
  | 0x08 => do let ty ← Ty.ofCode (slice f.mod 6 4); let d ← Operand.ofCode f.d; let a ← Operand.ofCode f.a; let b ← Operand.ofCode f.b; some (.rdlane h ty d a b)
  | _ => none

/-- The instruction that the fields of an opcode of group 0x9 name; `none` for a code no entry defines. -/
def build9 (f : Fields) (h : Hdr) : Option Instr :=
  match slice f.op 0 8 |>.toNat with
  | 0x00 => do let m ← MemMod.ofCode f.mod; let d ← Operand.ofCode f.d; let a ← Operand.ofCode f.a; let b ← Operand.ofCode f.b; some (.ld h m d a b f.imm)
  | 0x01 => do let m ← MemMod.ofCode f.mod; let d ← Operand.ofCode f.d; let a ← Operand.ofCode f.a; let b ← Operand.ofCode f.b; some (.st h m d a b f.imm)
  | 0x02 => do let ty ← Ty.ofCode (slice f.mod 6 4); let d ← Operand.ofCode f.d; let a ← Operand.ofCode f.a; some (.ldp h ty (slice f.imm 28 4) (slice f.imm 0 28) d a)
  | 0x10 => do let d ← Operand.ofCode f.d; let a ← Operand.ofCode f.a; let b ← Operand.ofCode f.b; some (.discard h d a b f.imm)
  | 0x11 => do let a ← Operand.ofCode f.a; let b ← Operand.ofCode f.b; some (.pref h (slice f.mod 6 1 == 1#1) a b f.imm)
  | _ => none

/-- The instruction that the fields of an opcode of group 0xA name; `none` for a code no entry defines. -/
def buildA (f : Fields) (h : Hdr) : Option Instr :=
  match slice f.op 0 8 |>.toNat with
  | 0x00 => do let m ← MemMod.ofCode f.mod; let d ← Operand.ofCode f.d; let a ← Operand.ofCode f.a; let b ← Operand.ofCode f.b; let x ← Operand.ofCode (slice f.imm 0 10); some (.atomAdd h m d a b (slice f.imm 20 12) x)
  | 0x01 => do let m ← MemMod.ofCode f.mod; let d ← Operand.ofCode f.d; let a ← Operand.ofCode f.a; let b ← Operand.ofCode f.b; let x ← Operand.ofCode (slice f.imm 0 10); some (.atomMin h m d a b (slice f.imm 20 12) x)
  | 0x02 => do let m ← MemMod.ofCode f.mod; let d ← Operand.ofCode f.d; let a ← Operand.ofCode f.a; let b ← Operand.ofCode f.b; let x ← Operand.ofCode (slice f.imm 0 10); some (.atomMax h m d a b (slice f.imm 20 12) x)
  | 0x03 => do let m ← MemMod.ofCode f.mod; let d ← Operand.ofCode f.d; let a ← Operand.ofCode f.a; let b ← Operand.ofCode f.b; let x ← Operand.ofCode (slice f.imm 0 10); some (.atomAnd h m d a b (slice f.imm 20 12) x)
  | 0x04 => do let m ← MemMod.ofCode f.mod; let d ← Operand.ofCode f.d; let a ← Operand.ofCode f.a; let b ← Operand.ofCode f.b; let x ← Operand.ofCode (slice f.imm 0 10); some (.atomOr h m d a b (slice f.imm 20 12) x)
  | 0x05 => do let m ← MemMod.ofCode f.mod; let d ← Operand.ofCode f.d; let a ← Operand.ofCode f.a; let b ← Operand.ofCode f.b; let x ← Operand.ofCode (slice f.imm 0 10); some (.atomXor h m d a b (slice f.imm 20 12) x)
  | 0x06 => do let m ← MemMod.ofCode f.mod; let d ← Operand.ofCode f.d; let a ← Operand.ofCode f.a; let b ← Operand.ofCode f.b; let x ← Operand.ofCode (slice f.imm 0 10); some (.atomExch h m d a b (slice f.imm 20 12) x)
  | 0x07 => do let m ← MemMod.ofCode f.mod; let d ← Operand.ofCode f.d; let a ← Operand.ofCode f.a; let b ← Operand.ofCode f.b; let cmp ← Operand.ofCode (slice f.imm 10 10); let x ← Operand.ofCode (slice f.imm 0 10); some (.atomCas h m d a b (slice f.imm 20 12) cmp x)
  | 0x08 => do let m ← MemMod.ofCode f.mod; let d ← Operand.ofCode f.d; let a ← Operand.ofCode f.a; let b ← Operand.ofCode f.b; let x ← Operand.ofCode (slice f.imm 0 10); some (.atomFaddF32 h m d a b (slice f.imm 20 12) x)
  | 0x09 => do let m ← MemMod.ofCode f.mod; let d ← Operand.ofCode f.d; let a ← Operand.ofCode f.a; let b ← Operand.ofCode f.b; let x ← Operand.ofCode (slice f.imm 0 10); some (.atomFaddB2 h m d a b (slice f.imm 20 12) x)
  | 0x10 => do let m ← MemMod.ofCode f.mod; let a ← Operand.ofCode f.a; let b ← Operand.ofCode f.b; let x ← Operand.ofCode (slice f.imm 0 10); some (.redAdd h m a b (slice f.imm 20 12) x)
  | 0x11 => do let m ← MemMod.ofCode f.mod; let a ← Operand.ofCode f.a; let b ← Operand.ofCode f.b; let x ← Operand.ofCode (slice f.imm 0 10); some (.redMin h m a b (slice f.imm 20 12) x)
  | 0x12 => do let m ← MemMod.ofCode f.mod; let a ← Operand.ofCode f.a; let b ← Operand.ofCode f.b; let x ← Operand.ofCode (slice f.imm 0 10); some (.redMax h m a b (slice f.imm 20 12) x)
  | 0x13 => do let m ← MemMod.ofCode f.mod; let a ← Operand.ofCode f.a; let b ← Operand.ofCode f.b; let x ← Operand.ofCode (slice f.imm 0 10); some (.redAnd h m a b (slice f.imm 20 12) x)
  | 0x14 => do let m ← MemMod.ofCode f.mod; let a ← Operand.ofCode f.a; let b ← Operand.ofCode f.b; let x ← Operand.ofCode (slice f.imm 0 10); some (.redOr h m a b (slice f.imm 20 12) x)
  | 0x15 => do let m ← MemMod.ofCode f.mod; let a ← Operand.ofCode f.a; let b ← Operand.ofCode f.b; let x ← Operand.ofCode (slice f.imm 0 10); some (.redXor h m a b (slice f.imm 20 12) x)
  | 0x18 => do let m ← MemMod.ofCode f.mod; let a ← Operand.ofCode f.a; let b ← Operand.ofCode f.b; let x ← Operand.ofCode (slice f.imm 0 10); some (.redFaddF32 h m a b (slice f.imm 20 12) x)
  | 0x19 => do let m ← MemMod.ofCode f.mod; let a ← Operand.ofCode f.a; let b ← Operand.ofCode f.b; let x ← Operand.ofCode (slice f.imm 0 10); some (.redFaddB2 h m a b (slice f.imm 20 12) x)
  | 0x20 => do let m ← MemMod.ofCode f.mod; some (.fence h m)
  | 0x21 => do some (.fenceo h)
  | 0x22 => do let m ← MemMod.ofCode f.mod; some (.fencer h m)
  | _ => none

/-- The instruction that the fields of an opcode of group 0xB name; `none` for a code no entry defines. -/
def buildB (f : Fields) (h : Hdr) : Option Instr :=
  match slice f.op 0 8 |>.toNat with
  | 0x00 => do let d ← Operand.ofCode f.d; let a ← Operand.ofCode f.a; let b ← Operand.ofCode f.b; some (.copy h (slice f.mod 4 1 == 1#1) (slice f.mod 3 1 == 1#1) d a b (slice f.imm 0 6))
  | 0x01 => do let d ← Operand.ofCode f.d; let a ← Operand.ofCode f.a; let b ← Operand.ofCode f.b; some (.copym h d a b (slice f.imm 0 6) (slice f.imm 6 4) (slice f.imm 10 4))
  | 0x02 => do let d ← Operand.ofCode f.d; let a ← Operand.ofCode f.a; let b ← Operand.ofCode f.b; some (.gather h (slice f.mod 3 1 == 1#1) d a b (slice f.imm 0 6) (slice f.imm 6 12) (slice f.imm 18 14))
  | 0x03 => do let ty ← Ty.ofCode (slice f.mod 6 4); let op ← CollOp.ofCode (slice f.mod 4 2); let d ← Operand.ofCode f.d; let a ← Operand.ofCode f.a; let b ← Operand.ofCode f.b; some (.coll h ty op (slice f.mod 3 1 == 1#1) (slice f.mod 2 1 == 1#1) d a b (slice f.imm 0 6) (slice f.imm 6 6))
  | 0x10 => do let d ← Operand.ofCode f.d; let b ← Operand.ofCode f.b; let vr ← Operand.ofCode (slice f.imm 0 10); some (.qenq h (slice f.mod 4 2) d b vr)
  | 0x11 => do let d ← Operand.ofCode f.d; let b ← Operand.ofCode f.b; let vr ← Operand.ofCode (slice f.imm 0 10); some (.qdeq h (slice f.mod 4 2) d b vr)
  | 0x12 => do let d ← Operand.ofCode f.d; let b ← Operand.ofCode f.b; some (.qstat h d b)
  | 0x20 => do let d ← Operand.ofCode f.d; let a ← Operand.ofCode f.a; let b ← Operand.ofCode f.b; some (.spawn h d a b)
  | _ => none

/-- The instruction that the fields of an opcode of group 0xC name; `none` for a code no entry defines. -/
def buildC (f : Fields) (h : Hdr) : Option Instr :=
  match slice f.op 0 8 |>.toNat with
  | 0x00 => do let d ← Operand.ofCode f.d; let a ← Operand.ofCode f.a; some (.osclook h (slice f.mod 3 1 == 1#1) d a)
  | 0x01 => do let d ← Operand.ofCode f.d; let a ← Operand.ofCode f.a; let b ← Operand.ofCode f.b; some (.oscwait h d a b)
  | 0x02 => do let d ← Operand.ofCode f.d; let a ← Operand.ofCode f.a; some (.oscfill h d a)
  | 0x03 => do let a ← Operand.ofCode f.a; some (.oscinv h a)
  | 0x04 => do some (.osctick h)
  | 0x05 => do let d ← Operand.ofCode f.d; let a ← Operand.ofCode f.a; some (.oscprov h d a)
  | 0x10 => do let d ← Operand.ofCode f.d; let a ← Operand.ofCode f.a; let b ← Operand.ofCode f.b; let vg ← Operand.ofCode (slice f.imm 0 10); some (.tex h (slice f.mod 3 1 == 1#1) d a b vg)
  | 0x11 =>
    match (slice f.mod 4 2).toNat with
    | 0 => do let d ← Operand.ofCode f.d; let a ← Operand.ofCode f.a; let b ← Operand.ofCode f.b; guard (f.imm = 0 ∧ slice f.mod 3 1 = 0#1); some (.texqSize h d a b)
    | 1 => do let d ← Operand.ofCode f.d; let a ← Operand.ofCode f.a; let b ← Operand.ofCode f.b; let vg ← Operand.ofCode (slice f.imm 0 10); some (.texqLod h (slice f.mod 3 1 == 1#1) d a b vg)
    | _ => none
  | 0x20 => do let a ← Operand.ofCode f.a; some (.trace h a (slice f.imm 0 6))
  | 0x21 => do let a ← Operand.ofCode f.a; some (.matev h a (slice f.imm 0 6))
  | 0x30 => do let a ← Operand.ofCode f.a; let b ← Operand.ofCode f.b; let draw ← Operand.ofCode (slice f.imm 0 10); some (.vemit h a b draw)
  | _ => none

/-- The instruction that the fields of an opcode of group 0xD name; `none` for a code no entry defines. -/
def buildD (f : Fields) (h : Hdr) : Option Instr :=
  match slice f.op 0 8 |>.toNat with
  | 0x00 => do let d ← Operand.ofCode f.d; let a ← Operand.ofCode f.a; some (.tdef h d a)
  | 0x01 => do let d ← Operand.ofCode f.d; let a ← Operand.ofCode f.a; some (.tqry h d a)
  | 0x10 => do let d ← Operand.ofCode f.d; let a ← Operand.ofCode f.a; let b ← Operand.ofCode f.b; some (.tmma h (slice f.mod 3 1 == 1#1) d a b (slice f.imm 0 6))
  | 0x11 => do let d ← Operand.ofCode f.d; let a ← Operand.ofCode f.a; let b ← Operand.ofCode f.b; some (.tmmd h (slice f.mod 3 1 == 1#1) d a b (slice f.imm 0 6))
  | 0x12 => do let d ← Operand.ofCode f.d; let a ← Operand.ofCode f.a; let b ← Operand.ofCode f.b; let tw ← Operand.ofCode (slice f.imm 6 10); some (.tvmm h d a b (slice f.imm 0 6) tw)
  | 0x13 => do let d ← Operand.ofCode f.d; let a ← Operand.ofCode f.a; let b ← Operand.ofCode f.b; some (.tmms h d a b (slice f.imm 0 6))
  | 0x20 => do let d ← Operand.ofCode f.d; some (.tzero h d)
  | 0x21 => do let d ← Operand.ofCode f.d; let a ← Operand.ofCode f.a; some (.taccld h d a (slice f.imm 0 6))
  | 0x22 => do let act ← Act.ofCode (slice f.mod 3 3); let d ← Operand.ofCode f.d; let a ← Operand.ofCode f.a; let b ← Operand.ofCode f.b; let scale ← Operand.ofCode (slice f.imm 6 10); some (.taccst h act d a b (slice f.imm 0 6) scale)
  | _ => none

/-- The instruction that the fields of an opcode of group 0xE name; `none` for a code no entry defines. -/
def buildE (f : Fields) (h : Hdr) : Option Instr :=
  match slice f.op 0 8 |>.toNat with
  | 0x00 => do let d ← Operand.ofCode f.d; let a ← Operand.ofCode f.a; some (.tfft h d a (slice f.imm 0 6))
  | 0x01 => do let d ← Operand.ofCode f.d; let a ← Operand.ofCode f.a; some (.tift h d a (slice f.imm 0 6))
  | 0x10 => do let d ← Operand.ofCode f.d; let a ← Operand.ofCode f.a; some (.xfm h (slice f.mod 3 1 == 1#1) d a (slice f.imm 0 6))
  | 0x11 => do let act ← Act.ofCode (slice f.mod 3 3); let d ← Operand.ofCode f.d; let a ← Operand.ofCode f.a; some (.xchain h act d a (slice f.imm 0 6))
  | 0x20 => do let a ← Operand.ofCode f.a; some (.tabld h a (slice f.imm 0 6) (slice f.imm 6 4))
  | _ => none

/-- The layout of an opcode; `none` for the opcodes R226 leaves unassigned. -/
def layoutOf (op : BitVec 12) : Option Layout :=
  let lo := (slice op 0 8).toNat
  match (slice op 8 4).toNat with
  | 0x0 => layout0 lo
  | 0x1 => layout1 lo
  | 0x2 => layout2 lo
  | 0x3 => layout3 lo
  | 0x4 => layout4 lo
  | 0x5 => layout5 lo
  | 0x6 => layout6 lo
  | 0x7 => layout7 lo
  | 0x8 => layout8 lo
  | 0x9 => layout9 lo
  | 0xA => layoutA lo
  | 0xB => layoutB lo
  | 0xC => layoutC lo
  | 0xD => layoutD lo
  | 0xE => layoutE lo
  | _ => none

/-- The instruction that fields name, before its operand spaces are checked; `none` for a reserved code. -/
def build (f : Fields) : Option Instr := do
  let g ← Guard.ofCode f.g
  let hint ← Hint.ofCode f.hint
  match (slice f.op 8 4).toNat with
  | 0x0 => build0 f ⟨g, hint⟩
  | 0x1 => build1 f ⟨g, hint⟩
  | 0x2 => build2 f ⟨g, hint⟩
  | 0x3 => build3 f ⟨g, hint⟩
  | 0x4 => build4 f ⟨g, hint⟩
  | 0x5 => build5 f ⟨g, hint⟩
  | 0x6 => build6 f ⟨g, hint⟩
  | 0x7 => build7 f ⟨g, hint⟩
  | 0x8 => build8 f ⟨g, hint⟩
  | 0x9 => build9 f ⟨g, hint⟩
  | 0xA => buildA f ⟨g, hint⟩
  | 0xB => buildB f ⟨g, hint⟩
  | 0xC => buildC f ⟨g, hint⟩
  | 0xD => buildD f ⟨g, hint⟩
  | 0xE => buildE f ⟨g, hint⟩
  | _ => none

/-- Every reserved field and bit of the word is zero, and the guard is 0 where R196 forbids one (R222 step 3). -/
def Layout.clean (l : Layout) (f : Fields) : Bool :=
  (!l.guard0 || f.g == 0) && (l.d || f.d == 0) && (l.a || f.a == 0) && (l.b || f.b == 0)
    && f.imm &&& ~~~ l.imm == 0 && f.mod &&& ~~~ l.mod == 0

/-- The fates of a fetched word from step 2 of R222 on. -/
inductive Decoded where
  | ok (i : Instr)
  | illegalInstruction
  | illegalEncoding
  | illegalOperand
  deriving DecidableEq, Repr

/-- The decoder on fields, in the order of R222. -/
def decodeFields (f : Fields) : Decoded :=
  match layoutOf f.op with
  | none => .illegalInstruction
  | some l =>
    if !l.clean f then .illegalEncoding
    else
      match build f with
      | none => .illegalEncoding
      | some i => if !i.encodable then .illegalEncoding else if !i.operandsOk then .illegalOperand else .ok i

/-- The decoder on a 96-bit word (R222). -/
def decode (w : IWord) : Decoded := decodeFields (Fields.ofWord w)

/-- The word of twelve bytes, the lowest address first (R6, R214). -/
def wordOfBytes (bs : List Byte) : IWord :=
  .ofNat 96 (bs.foldr (fun b acc => b.toNat + 256 * acc) 0)

/-- The twelve bytes of a word, the lowest address first (R6, R214). -/
def bytesOfWord (w : IWord) : List Byte := (List.range 12).map fun k => .ofNat 8 (w.toNat >>> (8 * k))

/-- Decoding the bytes at an instruction address: a word of twelve bytes, or no instruction for a list too short. -/
def decodeBytes (bs : List Byte) : Decoded :=
  if bs.length < 12 then .illegalInstruction else decode (wordOfBytes (bs.take 12))

/-- The fields of an instruction (R226 and the encoding tables of the instruction chapters). -/
def encodeFields : Instr → Fields
  | .nop h => { op := 0x001, g := h.guard.code, hint := h.hint.code }
  | .trap h code => { op := 0x002, g := h.guard.code, hint := h.hint.code, imm := .ofNat 32 (code.toNat) }
  | .bkpt h code => { op := 0x003, g := h.guard.code, hint := h.hint.code, imm := .ofNat 32 (code.toNat) }
  | .yieldI h => { op := 0x004, g := h.guard.code, hint := h.hint.code }
  | .srd h num d => { op := 0x010, g := h.guard.code, hint := h.hint.code, d := d.code, imm := .ofNat 32 (num.toNat) }
  | .swr h num a => { op := 0x011, g := h.guard.code, hint := h.hint.code, a := a.code, imm := .ofNat 32 (num.toNat) }
  | .icinv h scope => { op := 0x020, g := h.guard.code, hint := h.hint.code, mod := .ofNat 10 (scope.code.toNat) }
  | .wsync h => { op := 0x021, g := h.guard.code, hint := h.hint.code }
  | .lnch h d a => { op := 0x030, g := h.guard.code, hint := h.hint.code, d := d.code, a := a.code }
  | .bra h target => { op := 0x100, g := h.guard.code, hint := h.hint.code, imm := target }
  | .brc h c target => { op := 0x101, g := h.guard.code, hint := h.hint.code, a := c.code, imm := target }
  | .jmask h d => { op := 0x102, g := h.guard.code, hint := h.hint.code, d := d.code }
  | .join h a => { op := 0x103, g := h.guard.code, hint := h.hint.code, a := a.code }
  | .ifI h c target => { op := 0x110, g := h.guard.code, hint := h.hint.code, a := c.code, imm := target }
  | .elseI h target => { op := 0x111, g := h.guard.code, hint := h.hint.code, imm := target }
  | .endifI h => { op := 0x112, g := h.guard.code, hint := h.hint.code }
  | .loop h => { op := 0x113, g := h.guard.code, hint := h.hint.code }
  | .breakI h c n => { op := 0x114, g := h.guard.code, hint := h.hint.code, a := c.code, imm := .ofNat 32 (n.toNat) }
  | .cont h c n => { op := 0x115, g := h.guard.code, hint := h.hint.code, a := c.code, imm := .ofNat 32 (n.toNat) }
  | .endloop h target => { op := 0x116, g := h.guard.code, hint := h.hint.code, imm := target }
  | .call h f4 target => { op := 0x120, g := h.guard.code, hint := h.hint.code, imm := target, mod := .ofNat 10 (8 * f4.toNat) }
  | .calli h f4 a b => { op := 0x121, g := h.guard.code, hint := h.hint.code, a := a.code, b := b.code, mod := .ofNat 10 (8 * f4.toNat) }
  | .ret h => { op := 0x122, g := h.guard.code, hint := h.hint.code }
  | .exit h => { op := 0x130, g := h.guard.code, hint := h.hint.code }
  | .waitc h ld st cp tl => { op := 0x200, g := h.guard.code, hint := h.hint.code, imm := .ofNat 32 (ld.toNat + 64 * st.toNat + 4096 * cp.toNat + 262144 * tl.toNat) }
  | .twait h any a => { op := 0x201, g := h.guard.code, hint := h.hint.code, a := a.code, mod := .ofNat 10 (8 * (boolBit any)) }
  | .tfirst h d a => { op := 0x202, g := h.guard.code, hint := h.hint.code, d := d.code, a := a.code }
  | .barArrive h lvl n => { op := 0x210, g := h.guard.code, hint := h.hint.code, imm := .ofNat 32 (16 * lvl.code.toNat + n.toNat) }
  | .barWait h lvl n a => { op := 0x210, g := h.guard.code, hint := h.hint.code, a := a.code, imm := .ofNat 32 (16 * lvl.code.toNat + n.toNat), mod := .ofNat 10 (16 * 1) }
  | .barSync h lvl n => { op := 0x210, g := h.guard.code, hint := h.hint.code, imm := .ofNat 32 (16 * lvl.code.toNat + n.toNat), mod := .ofNat 10 (16 * 2) }
  | .barph h lvl n d => { op := 0x211, g := h.guard.code, hint := h.hint.code, d := d.code, imm := .ofNat 32 (16 * lvl.code.toNat + n.toNat) }
  | .iadd h ty sat d a b => { op := 0x300, g := h.guard.code, hint := h.hint.code, d := d.code, a := a.code, b := b.code, mod := .ofNat 10 (64 * ty.code.toNat + (boolBit sat)) }
  | .iaddc h ty sub d a b c => { op := 0x301, g := h.guard.code, hint := h.hint.code, d := d.code, a := a.code, b := b.code, imm := .ofNat 32 (c.code.toNat), mod := .ofNat 10 (64 * ty.code.toNat + (boolBit sub)) }
  | .isub h ty sat d a b => { op := 0x302, g := h.guard.code, hint := h.hint.code, d := d.code, a := a.code, b := b.code, mod := .ofNat 10 (64 * ty.code.toNat + (boolBit sat)) }
  | .imul h ty d a b => { op := 0x303, g := h.guard.code, hint := h.hint.code, d := d.code, a := a.code, b := b.code, mod := .ofNat 10 (64 * ty.code.toNat) }
  | .imulh h ty d a b => { op := 0x304, g := h.guard.code, hint := h.hint.code, d := d.code, a := a.code, b := b.code, mod := .ofNat 10 (64 * ty.code.toNat) }
  | .imad h ty sat d a b c => { op := 0x305, g := h.guard.code, hint := h.hint.code, d := d.code, a := a.code, b := b.code, imm := .ofNat 32 (c.code.toNat), mod := .ofNat 10 (64 * ty.code.toNat + (boolBit sat)) }
  | .iadd64 h ty d a b => { op := 0x306, g := h.guard.code, hint := h.hint.code, d := d.code, a := a.code, b := b.code, mod := .ofNat 10 (64 * ty.code.toNat) }
  | .imad64 h ty d a b c => { op := 0x307, g := h.guard.code, hint := h.hint.code, d := d.code, a := a.code, b := b.code, imm := .ofNat 32 (c.code.toNat), mod := .ofNat 10 (64 * ty.code.toNat) }
  | .imin h ty d a b => { op := 0x308, g := h.guard.code, hint := h.hint.code, d := d.code, a := a.code, b := b.code, mod := .ofNat 10 (64 * ty.code.toNat) }
  | .imax h ty d a b => { op := 0x309, g := h.guard.code, hint := h.hint.code, d := d.code, a := a.code, b := b.code, mod := .ofNat 10 (64 * ty.code.toNat) }
  | .iabs h ty sat d a => { op := 0x30A, g := h.guard.code, hint := h.hint.code, d := d.code, a := a.code, mod := .ofNat 10 (64 * ty.code.toNat + (boolBit sat)) }
  | .icmp h ty cond d a b => { op := 0x30B, g := h.guard.code, hint := h.hint.code, d := d.code, a := a.code, b := b.code, mod := .ofNat 10 (64 * ty.code.toNat + cond.code.toNat) }
  | .isel h ty d a b c => { op := 0x30C, g := h.guard.code, hint := h.hint.code, d := d.code, a := a.code, b := b.code, imm := .ofNat 32 (c.code.toNat), mod := .ofNat 10 (64 * ty.code.toNat) }
  | .idot4 h ty sat d a b c => { op := 0x30D, g := h.guard.code, hint := h.hint.code, d := d.code, a := a.code, b := b.code, imm := .ofNat 32 (c.code.toNat), mod := .ofNat 10 (64 * ty.code.toNat + (boolBit sat)) }
  | .mov h ty d a => { op := 0x310, g := h.guard.code, hint := h.hint.code, d := d.code, a := a.code, mod := .ofNat 10 (64 * ty.code.toNat) }
  | .movi h ty d imm => { op := 0x311, g := h.guard.code, hint := h.hint.code, d := d.code, imm := imm, mod := .ofNat 10 (64 * ty.code.toNat) }
  | .shl h ty d a b => { op := 0x400, g := h.guard.code, hint := h.hint.code, d := d.code, a := a.code, b := b.code, mod := .ofNat 10 (64 * ty.code.toNat) }
  | .shr h ty d a b => { op := 0x401, g := h.guard.code, hint := h.hint.code, d := d.code, a := a.code, b := b.code, mod := .ofNat 10 (64 * ty.code.toNat) }
  | .sar h ty d a b => { op := 0x402, g := h.guard.code, hint := h.hint.code, d := d.code, a := a.code, b := b.code, mod := .ofNat 10 (64 * ty.code.toNat) }
  | .rotl h ty d a b => { op := 0x403, g := h.guard.code, hint := h.hint.code, d := d.code, a := a.code, b := b.code, mod := .ofNat 10 (64 * ty.code.toNat) }
  | .fshl h ty d a b c => { op := 0x404, g := h.guard.code, hint := h.hint.code, d := d.code, a := a.code, b := b.code, imm := .ofNat 32 (c.code.toNat), mod := .ofNat 10 (64 * ty.code.toNat) }
  | .fshr h ty d a b c => { op := 0x405, g := h.guard.code, hint := h.hint.code, d := d.code, a := a.code, b := b.code, imm := .ofNat 32 (c.code.toNat), mod := .ofNat 10 (64 * ty.code.toNat) }
  | .and h ty d a b => { op := 0x410, g := h.guard.code, hint := h.hint.code, d := d.code, a := a.code, b := b.code, mod := .ofNat 10 (64 * ty.code.toNat) }
  | .or h ty d a b => { op := 0x411, g := h.guard.code, hint := h.hint.code, d := d.code, a := a.code, b := b.code, mod := .ofNat 10 (64 * ty.code.toNat) }
  | .xor h ty d a b => { op := 0x412, g := h.guard.code, hint := h.hint.code, d := d.code, a := a.code, b := b.code, mod := .ofNat 10 (64 * ty.code.toNat) }
  | .andn h ty d a b => { op := 0x413, g := h.guard.code, hint := h.hint.code, d := d.code, a := a.code, b := b.code, mod := .ofNat 10 (64 * ty.code.toNat) }
  | .not h ty d a => { op := 0x414, g := h.guard.code, hint := h.hint.code, d := d.code, a := a.code, mod := .ofNat 10 (64 * ty.code.toNat) }
  | .bfx h ty d a b => { op := 0x420, g := h.guard.code, hint := h.hint.code, d := d.code, a := a.code, b := b.code, mod := .ofNat 10 (64 * ty.code.toNat) }
  | .bfi h ty d a b c => { op := 0x421, g := h.guard.code, hint := h.hint.code, d := d.code, a := a.code, b := b.code, imm := .ofNat 32 (c.code.toNat), mod := .ofNat 10 (64 * ty.code.toNat) }
  | .clz h ty d a => { op := 0x422, g := h.guard.code, hint := h.hint.code, d := d.code, a := a.code, mod := .ofNat 10 (64 * ty.code.toNat) }
  | .ctz h ty d a => { op := 0x423, g := h.guard.code, hint := h.hint.code, d := d.code, a := a.code, mod := .ofNat 10 (64 * ty.code.toNat) }
  | .popc h ty d a => { op := 0x424, g := h.guard.code, hint := h.hint.code, d := d.code, a := a.code, mod := .ofNat 10 (64 * ty.code.toNat) }
  | .brev h ty d a => { op := 0x425, g := h.guard.code, hint := h.hint.code, d := d.code, a := a.code, mod := .ofNat 10 (64 * ty.code.toNat) }
  | .bilv h ty d a b => { op := 0x426, g := h.guard.code, hint := h.hint.code, d := d.code, a := a.code, b := b.code, mod := .ofNat 10 (64 * ty.code.toNat) }
  | .bdil h ty d a => { op := 0x427, g := h.guard.code, hint := h.hint.code, d := d.code, a := a.code, mod := .ofNat 10 (64 * ty.code.toNat) }
  | .prmt h ty d a b c => { op := 0x428, g := h.guard.code, hint := h.hint.code, d := d.code, a := a.code, b := b.code, imm := .ofNat 32 (c.code.toNat), mod := .ofNat 10 (64 * ty.code.toNat) }
  | .fadd h ty m d a b => { op := 0x500, g := h.guard.code, hint := h.hint.code, d := d.code, a := a.code, b := b.code, mod := .ofNat 10 (64 * ty.code.toNat + m.code.toNat) }
  | .fsub h ty m d a b => { op := 0x501, g := h.guard.code, hint := h.hint.code, d := d.code, a := a.code, b := b.code, mod := .ofNat 10 (64 * ty.code.toNat + m.code.toNat) }
  | .fmul h ty m d a b => { op := 0x502, g := h.guard.code, hint := h.hint.code, d := d.code, a := a.code, b := b.code, mod := .ofNat 10 (64 * ty.code.toNat + m.code.toNat) }
  | .ffma h ty m d a b c => { op := 0x503, g := h.guard.code, hint := h.hint.code, d := d.code, a := a.code, b := b.code, imm := .ofNat 32 (c.code.toNat), mod := .ofNat 10 (64 * ty.code.toNat + m.code.toNat) }
  | .fmin h ty m d a b => { op := 0x504, g := h.guard.code, hint := h.hint.code, d := d.code, a := a.code, b := b.code, mod := .ofNat 10 (64 * ty.code.toNat + m.code.toNat) }
  | .fmax h ty m d a b => { op := 0x505, g := h.guard.code, hint := h.hint.code, d := d.code, a := a.code, b := b.code, mod := .ofNat 10 (64 * ty.code.toNat + m.code.toNat) }
  | .fcmp h ty unord cond d a b => { op := 0x506, g := h.guard.code, hint := h.hint.code, d := d.code, a := a.code, b := b.code, mod := .ofNat 10 (64 * ty.code.toNat + 8 * (boolBit unord) + cond.code.toNat) }
  | .frint h ty dir d a => { op := 0x507, g := h.guard.code, hint := h.hint.code, d := d.code, a := a.code, mod := .ofNat 10 (64 * ty.code.toNat + dir.code.toNat) }
  | .hadd2 h ty m d a b => { op := 0x600, g := h.guard.code, hint := h.hint.code, d := d.code, a := a.code, b := b.code, mod := .ofNat 10 (64 * ty.code.toNat + m.code.toNat) }
  | .hmul2 h ty m d a b => { op := 0x601, g := h.guard.code, hint := h.hint.code, d := d.code, a := a.code, b := b.code, mod := .ofNat 10 (64 * ty.code.toNat + m.code.toNat) }
  | .hfma2 h ty m d a b c => { op := 0x602, g := h.guard.code, hint := h.hint.code, d := d.code, a := a.code, b := b.code, imm := .ofNat 32 (c.code.toNat), mod := .ofNat 10 (64 * ty.code.toNat + m.code.toNat) }
  | .hmin2 h ty m d a b => { op := 0x603, g := h.guard.code, hint := h.hint.code, d := d.code, a := a.code, b := b.code, mod := .ofNat 10 (64 * ty.code.toNat + m.code.toNat) }
  | .hmax2 h ty m d a b => { op := 0x604, g := h.guard.code, hint := h.hint.code, d := d.code, a := a.code, b := b.code, mod := .ofNat 10 (64 * ty.code.toNat + m.code.toNat) }
  | .frcp h ty d a => { op := 0x700, g := h.guard.code, hint := h.hint.code, d := d.code, a := a.code, mod := .ofNat 10 (64 * ty.code.toNat) }
  | .frsq h ty d a => { op := 0x701, g := h.guard.code, hint := h.hint.code, d := d.code, a := a.code, mod := .ofNat 10 (64 * ty.code.toNat) }
  | .fsqrt h ty d a => { op := 0x702, g := h.guard.code, hint := h.hint.code, d := d.code, a := a.code, mod := .ofNat 10 (64 * ty.code.toNat) }
  | .fex2 h ty d a => { op := 0x703, g := h.guard.code, hint := h.hint.code, d := d.code, a := a.code, mod := .ofNat 10 (64 * ty.code.toNat) }
  | .flg2 h ty d a => { op := 0x704, g := h.guard.code, hint := h.hint.code, d := d.code, a := a.code, mod := .ofNat 10 (64 * ty.code.toNat) }
  | .fsin h ty d a => { op := 0x705, g := h.guard.code, hint := h.hint.code, d := d.code, a := a.code, mod := .ofNat 10 (64 * ty.code.toNat) }
  | .fcos h ty d a => { op := 0x706, g := h.guard.code, hint := h.hint.code, d := d.code, a := a.code, mod := .ofNat 10 (64 * ty.code.toNat) }
  | .cvt h dst src hi d a => { op := 0x710, g := h.guard.code, hint := h.hint.code, d := d.code, a := a.code, mod := .ofNat 10 (64 * dst.code.toNat + src.code.toNat + 16 * (boolBit hi)) }
  | .pack8 h ty hi d a b c => { op := 0x711, g := h.guard.code, hint := h.hint.code, d := d.code, a := a.code, b := b.code, imm := .ofNat 32 (c.code.toNat), mod := .ofNat 10 (64 * ty.code.toNat + (boolBit hi)) }
  | .unpk8 h ty sel d a => { op := 0x712, g := h.guard.code, hint := h.hint.code, d := d.code, a := a.code, mod := .ofNat 10 (64 * ty.code.toNat + sel.toNat) }
  | .packd h ty d a b => { op := 0x713, g := h.guard.code, hint := h.hint.code, d := d.code, a := a.code, b := b.code, mod := .ofNat 10 (64 * ty.code.toNat) }
  | .shfl h ty mode d a b => { op := 0x800, g := h.guard.code, hint := h.hint.code, d := d.code, a := a.code, b := b.code, mod := .ofNat 10 (64 * ty.code.toNat + mode.code.toNat) }
  | .vote h ty mode d a => { op := 0x801, g := h.guard.code, hint := h.hint.code, d := d.code, a := a.code, mod := .ofNat 10 (64 * ty.code.toNat + mode.code.toNat) }
  | .matchI h ty d a => { op := 0x802, g := h.guard.code, hint := h.hint.code, d := d.code, a := a.code, mod := .ofNat 10 (64 * ty.code.toNat) }
  | .redw h ty op d a => { op := 0x803, g := h.guard.code, hint := h.hint.code, d := d.code, a := a.code, mod := .ofNat 10 (64 * ty.code.toNat + op.code.toNat) }
  | .scanw h ty op excl d a => { op := 0x804, g := h.guard.code, hint := h.hint.code, d := d.code, a := a.code, mod := .ofNat 10 (64 * ty.code.toNat + op.code.toNat + 8 * (boolBit excl)) }
  | .ddx h ty d a => { op := 0x805, g := h.guard.code, hint := h.hint.code, d := d.code, a := a.code, mod := .ofNat 10 (64 * ty.code.toNat) }
  | .ddy h ty d a => { op := 0x806, g := h.guard.code, hint := h.hint.code, d := d.code, a := a.code, mod := .ofNat 10 (64 * ty.code.toNat) }
  | .quad h ty mode n d a => { op := 0x807, g := h.guard.code, hint := h.hint.code, d := d.code, a := a.code, mod := .ofNat 10 (64 * ty.code.toNat + mode.code.toNat + 4 * n.toNat) }
  | .rdlane h ty d a b => { op := 0x808, g := h.guard.code, hint := h.hint.code, d := d.code, a := a.code, b := b.code, mod := .ofNat 10 (64 * ty.code.toNat) }
  | .ld h m d a b off => { op := 0x900, g := h.guard.code, hint := h.hint.code, d := d.code, a := a.code, b := b.code, imm := off, mod := .ofNat 10 (m.code.toNat) }
  | .st h m d a b off => { op := 0x901, g := h.guard.code, hint := h.hint.code, d := d.code, a := a.code, b := b.code, imm := off, mod := .ofNat 10 (m.code.toNat) }
  | .ldp h ty n off d a => { op := 0x902, g := h.guard.code, hint := h.hint.code, d := d.code, a := a.code, imm := .ofNat 32 (268435456 * n.toNat + off.toNat), mod := .ofNat 10 (64 * ty.code.toNat) }
  | .discard h d a b off => { op := 0x910, g := h.guard.code, hint := h.hint.code, d := d.code, a := a.code, b := b.code, imm := off }
  | .pref h l2 a b off => { op := 0x911, g := h.guard.code, hint := h.hint.code, a := a.code, b := b.code, imm := off, mod := .ofNat 10 (64 * (boolBit l2)) }
  | .atomAdd h m d a b off x => { op := 0xA00, g := h.guard.code, hint := h.hint.code, d := d.code, a := a.code, b := b.code, imm := .ofNat 32 (1048576 * off.toNat + x.code.toNat), mod := .ofNat 10 (m.code.toNat) }
  | .atomMin h m d a b off x => { op := 0xA01, g := h.guard.code, hint := h.hint.code, d := d.code, a := a.code, b := b.code, imm := .ofNat 32 (1048576 * off.toNat + x.code.toNat), mod := .ofNat 10 (m.code.toNat) }
  | .atomMax h m d a b off x => { op := 0xA02, g := h.guard.code, hint := h.hint.code, d := d.code, a := a.code, b := b.code, imm := .ofNat 32 (1048576 * off.toNat + x.code.toNat), mod := .ofNat 10 (m.code.toNat) }
  | .atomAnd h m d a b off x => { op := 0xA03, g := h.guard.code, hint := h.hint.code, d := d.code, a := a.code, b := b.code, imm := .ofNat 32 (1048576 * off.toNat + x.code.toNat), mod := .ofNat 10 (m.code.toNat) }
  | .atomOr h m d a b off x => { op := 0xA04, g := h.guard.code, hint := h.hint.code, d := d.code, a := a.code, b := b.code, imm := .ofNat 32 (1048576 * off.toNat + x.code.toNat), mod := .ofNat 10 (m.code.toNat) }
  | .atomXor h m d a b off x => { op := 0xA05, g := h.guard.code, hint := h.hint.code, d := d.code, a := a.code, b := b.code, imm := .ofNat 32 (1048576 * off.toNat + x.code.toNat), mod := .ofNat 10 (m.code.toNat) }
  | .atomExch h m d a b off x => { op := 0xA06, g := h.guard.code, hint := h.hint.code, d := d.code, a := a.code, b := b.code, imm := .ofNat 32 (1048576 * off.toNat + x.code.toNat), mod := .ofNat 10 (m.code.toNat) }
  | .atomCas h m d a b off cmp x => { op := 0xA07, g := h.guard.code, hint := h.hint.code, d := d.code, a := a.code, b := b.code, imm := .ofNat 32 (1048576 * off.toNat + 1024 * cmp.code.toNat + x.code.toNat), mod := .ofNat 10 (m.code.toNat) }
  | .atomFaddF32 h m d a b off x => { op := 0xA08, g := h.guard.code, hint := h.hint.code, d := d.code, a := a.code, b := b.code, imm := .ofNat 32 (1048576 * off.toNat + x.code.toNat), mod := .ofNat 10 (m.code.toNat) }
  | .atomFaddB2 h m d a b off x => { op := 0xA09, g := h.guard.code, hint := h.hint.code, d := d.code, a := a.code, b := b.code, imm := .ofNat 32 (1048576 * off.toNat + x.code.toNat), mod := .ofNat 10 (m.code.toNat) }
  | .redAdd h m a b off x => { op := 0xA10, g := h.guard.code, hint := h.hint.code, a := a.code, b := b.code, imm := .ofNat 32 (1048576 * off.toNat + x.code.toNat), mod := .ofNat 10 (m.code.toNat) }
  | .redMin h m a b off x => { op := 0xA11, g := h.guard.code, hint := h.hint.code, a := a.code, b := b.code, imm := .ofNat 32 (1048576 * off.toNat + x.code.toNat), mod := .ofNat 10 (m.code.toNat) }
  | .redMax h m a b off x => { op := 0xA12, g := h.guard.code, hint := h.hint.code, a := a.code, b := b.code, imm := .ofNat 32 (1048576 * off.toNat + x.code.toNat), mod := .ofNat 10 (m.code.toNat) }
  | .redAnd h m a b off x => { op := 0xA13, g := h.guard.code, hint := h.hint.code, a := a.code, b := b.code, imm := .ofNat 32 (1048576 * off.toNat + x.code.toNat), mod := .ofNat 10 (m.code.toNat) }
  | .redOr h m a b off x => { op := 0xA14, g := h.guard.code, hint := h.hint.code, a := a.code, b := b.code, imm := .ofNat 32 (1048576 * off.toNat + x.code.toNat), mod := .ofNat 10 (m.code.toNat) }
  | .redXor h m a b off x => { op := 0xA15, g := h.guard.code, hint := h.hint.code, a := a.code, b := b.code, imm := .ofNat 32 (1048576 * off.toNat + x.code.toNat), mod := .ofNat 10 (m.code.toNat) }
  | .redFaddF32 h m a b off x => { op := 0xA18, g := h.guard.code, hint := h.hint.code, a := a.code, b := b.code, imm := .ofNat 32 (1048576 * off.toNat + x.code.toNat), mod := .ofNat 10 (m.code.toNat) }
  | .redFaddB2 h m a b off x => { op := 0xA19, g := h.guard.code, hint := h.hint.code, a := a.code, b := b.code, imm := .ofNat 32 (1048576 * off.toNat + x.code.toNat), mod := .ofNat 10 (m.code.toNat) }
  | .fence h m => { op := 0xA20, g := h.guard.code, hint := h.hint.code, mod := .ofNat 10 (m.code.toNat) }
  | .fenceo h => { op := 0xA21, g := h.guard.code, hint := h.hint.code }
  | .fencer h m => { op := 0xA22, g := h.guard.code, hint := h.hint.code, mod := .ofNat 10 (m.code.toNat) }
  | .copy h dscr sscr d a b tag => { op := 0xB00, g := h.guard.code, hint := h.hint.code, d := d.code, a := a.code, b := b.code, imm := .ofNat 32 (tag.toNat), mod := .ofNat 10 (16 * (boolBit dscr) + 8 * (boolBit sscr)) }
  | .copym h d a b tag mask bar => { op := 0xB01, g := h.guard.code, hint := h.hint.code, d := d.code, a := a.code, b := b.code, imm := .ofNat 32 (tag.toNat + 64 * mask.toNat + 1024 * bar.toNat) }
  | .gather h iscr d a b tag row count => { op := 0xB02, g := h.guard.code, hint := h.hint.code, d := d.code, a := a.code, b := b.code, imm := .ofNat 32 (tag.toNat + 64 * row.toNat + 262144 * count.toNat), mod := .ofNat 10 (8 * (boolBit iscr)) }
  | .coll h ty op sscr dscr d a b tag group => { op := 0xB03, g := h.guard.code, hint := h.hint.code, d := d.code, a := a.code, b := b.code, imm := .ofNat 32 (tag.toNat + 64 * group.toNat), mod := .ofNat 10 (64 * ty.code.toNat + 16 * op.code.toNat + 8 * (boolBit sscr) + 4 * (boolBit dscr)) }
  | .qenq h rs d b vr => { op := 0xB10, g := h.guard.code, hint := h.hint.code, d := d.code, b := b.code, imm := .ofNat 32 (vr.code.toNat), mod := .ofNat 10 (16 * rs.toNat) }
  | .qdeq h rs d b vr => { op := 0xB11, g := h.guard.code, hint := h.hint.code, d := d.code, b := b.code, imm := .ofNat 32 (vr.code.toNat), mod := .ofNat 10 (16 * rs.toNat) }
  | .qstat h d b => { op := 0xB12, g := h.guard.code, hint := h.hint.code, d := d.code, b := b.code }
  | .spawn h d a b => { op := 0xB20, g := h.guard.code, hint := h.hint.code, d := d.code, a := a.code, b := b.code }
  | .osclook h staleok d a => { op := 0xC00, g := h.guard.code, hint := h.hint.code, d := d.code, a := a.code, mod := .ofNat 10 (8 * (boolBit staleok)) }
  | .oscwait h d a b => { op := 0xC01, g := h.guard.code, hint := h.hint.code, d := d.code, a := a.code, b := b.code }
  | .oscfill h d a => { op := 0xC02, g := h.guard.code, hint := h.hint.code, d := d.code, a := a.code }
  | .oscinv h a => { op := 0xC03, g := h.guard.code, hint := h.hint.code, a := a.code }
  | .osctick h => { op := 0xC04, g := h.guard.code, hint := h.hint.code }
  | .oscprov h d a => { op := 0xC05, g := h.guard.code, hint := h.hint.code, d := d.code, a := a.code }
  | .tex h cone d a b vg => { op := 0xC10, g := h.guard.code, hint := h.hint.code, d := d.code, a := a.code, b := b.code, imm := .ofNat 32 (vg.code.toNat), mod := .ofNat 10 (8 * (boolBit cone)) }
  | .texqSize h d a b => { op := 0xC11, g := h.guard.code, hint := h.hint.code, d := d.code, a := a.code, b := b.code }
  | .texqLod h cone d a b vg => { op := 0xC11, g := h.guard.code, hint := h.hint.code, d := d.code, a := a.code, b := b.code, imm := .ofNat 32 (vg.code.toNat), mod := .ofNat 10 (8 * (boolBit cone) + 16 * 1) }
  | .trace h a tag => { op := 0xC20, g := h.guard.code, hint := h.hint.code, a := a.code, imm := .ofNat 32 (tag.toNat) }
  | .matev h a tag => { op := 0xC21, g := h.guard.code, hint := h.hint.code, a := a.code, imm := .ofNat 32 (tag.toNat) }
  | .vemit h a b draw => { op := 0xC30, g := h.guard.code, hint := h.hint.code, a := a.code, b := b.code, imm := .ofNat 32 (draw.code.toNat) }
  | .tdef h d a => { op := 0xD00, g := h.guard.code, hint := h.hint.code, d := d.code, a := a.code }
  | .tqry h d a => { op := 0xD01, g := h.guard.code, hint := h.hint.code, d := d.code, a := a.code }
  | .tmma h bt d a b tag => { op := 0xD10, g := h.guard.code, hint := h.hint.code, d := d.code, a := a.code, b := b.code, imm := .ofNat 32 (tag.toNat), mod := .ofNat 10 (8 * (boolBit bt)) }
  | .tmmd h bt d a b tag => { op := 0xD11, g := h.guard.code, hint := h.hint.code, d := d.code, a := a.code, b := b.code, imm := .ofNat 32 (tag.toNat), mod := .ofNat 10 (8 * (boolBit bt)) }
  | .tvmm h d a b tag tw => { op := 0xD12, g := h.guard.code, hint := h.hint.code, d := d.code, a := a.code, b := b.code, imm := .ofNat 32 (tag.toNat + 64 * tw.code.toNat) }
  | .tmms h d a b tag => { op := 0xD13, g := h.guard.code, hint := h.hint.code, d := d.code, a := a.code, b := b.code, imm := .ofNat 32 (tag.toNat) }
  | .tzero h d => { op := 0xD20, g := h.guard.code, hint := h.hint.code, d := d.code }
  | .taccld h d a tag => { op := 0xD21, g := h.guard.code, hint := h.hint.code, d := d.code, a := a.code, imm := .ofNat 32 (tag.toNat) }
  | .taccst h act d a b tag scale => { op := 0xD22, g := h.guard.code, hint := h.hint.code, d := d.code, a := a.code, b := b.code, imm := .ofNat 32 (tag.toNat + 64 * scale.code.toNat), mod := .ofNat 10 (8 * act.code.toNat) }
  | .tfft h d a tag => { op := 0xE00, g := h.guard.code, hint := h.hint.code, d := d.code, a := a.code, imm := .ofNat 32 (tag.toNat) }
  | .tift h d a tag => { op := 0xE01, g := h.guard.code, hint := h.hint.code, d := d.code, a := a.code, imm := .ofNat 32 (tag.toNat) }
  | .xfm h tr d a tag => { op := 0xE10, g := h.guard.code, hint := h.hint.code, d := d.code, a := a.code, imm := .ofNat 32 (tag.toNat), mod := .ofNat 10 (8 * (boolBit tr)) }
  | .xchain h act d a tag => { op := 0xE11, g := h.guard.code, hint := h.hint.code, d := d.code, a := a.code, imm := .ofNat 32 (tag.toNat), mod := .ofNat 10 (8 * act.code.toNat) }
  | .tabld h a tag gen => { op := 0xE20, g := h.guard.code, hint := h.hint.code, a := a.code, imm := .ofNat 32 (tag.toNat + 64 * gen.toNat) }
  | _ => { op := 0 }

/-- The word of a well-formed instruction; an event has the unassigned opcode 0. -/
def encode (i : Instr) : IWord := (encodeFields i).toWord

/-- The instruction read from the opcode table's numbering of a word: bit 0 is the least significant bit of word 0, and
bits above `nbits` are zero.  Words lie as R214 stores them. -/
def decodeTableWord (nbits w : Nat) : Option Instr :=
  match decodeBytes (bytesOfWord (.ofNat 96 (w % 2 ^ nbits))) with
  | .ok i => some i
  | _ => none

end Sys2Proof
end

