-- ==== Sys2Proof/Machine/Fetch.lean ====
section
/-! DEFINITION. Fetching an instruction word (R51, R222 step 1, R227).  A line of the instruction cache keeps the bytes it
was filled with until an ICINV or its replacement; each 4-byte word of a fetch is its old or its new value by a free choice
(DESIGN CHOICE, log entry 7). -/
namespace Sys2Proof.Machine

/-- A PC that is no instruction address (R222 step 1). -/
def badFetch (pc : Nat) : Bool := pc / 2 ^ 56 != 0 || (span pc 12).any fun a => a / 2 ^ 56 != 0 || inDeviceWindow a

/-- The cached line of a location. -/
def CoreSt.iline (c : CoreSt) (k : Nat) : Option ILine := c.icache.find? fun ln => ln.loc == k / 256 * 256

/-- The contents of storage that a fetch may still find a word in: those kept since the last ICINV that reached the core (R227). -/
def State.oldCode (s : State) (core : Nat) : List (List Host.Cell) := s.codeHeld.drop (s.core core).codeFrom

/-- A byte as one word of a fetch reads it, with poison: of a cached line its own or the one now in storage; of another line the one
now in storage, or one that storage held since the core's last ICINV, since no fetch buffer before it need have followed (R227;
DESIGN CHOICE, log entry 7). -/
def State.fetchByte (s : State) (core first k : Nat) : Byte × Bool :=
  match (s.core core).iline k with
  | some ln =>
    if Config.fetchesNew s.choice first then (s.byte k, s.secPoison k)
    else (Sparse.get 0 ln.cells k, ln.poison.getLsbD (k / 64 % 4))
  | none =>
    let olds := s.oldCode core
    match olds[Config.fetchesOld s.choice first % (olds.length + 1)]? with
    | some m => if k < windowTop then (Sparse.get 0 m k, s.secPoison k) else (s.byte k, s.secPoison k)
    | none => (s.byte k, s.secPoison k)

/-- The instruction cache a block fetches through: its core's, or that of its cluster's service core. -/
def Block.icache (b : Block) : Nat := if b.svc then 160 + clusterOf b.core else b.core

/-- The bytes of a fetch at given locations, word by word, with whether any is poisoned. -/
def State.fetchBytes (s : State) (core : Nat) (ks : List Nat) : List Byte × Bool :=
  let bs := (List.range ks.length).map fun i => s.fetchByte core (ks.getD (i / 4 * 4) 0) (ks.getD i 0)
  (bs.map Prod.fst, bs.any Prod.snd)

/-- A line as it is filled from its home, into a set. -/
def State.newILine (s : State) (base set : Nat) : ILine :=
  ⟨base, set, if base < windowTop then s.mem.filter fun c => decide (base ≤ c.1) && decide (c.1 < base + 256)
      else ((span base 256).map fun k => (k, s.byte k)).filter fun c => c.2 != 0,
    .ofNat 4 ((List.range 4).foldl (fun a q => if s.secPoison (base + 64 * q) then a + 2 ^ q else a) 0)⟩

/-- Ways of a set of an instruction cache: eight, but for those that errors have retired (R51, R71). -/
def CoreSt.iways (c : CoreSt) (set : Nat) : Nat := 8 - c.iretired.countP fun r => r.1 == set

/-- Put a line into its set; a full set gives up a line that a free value names (R51; DESIGN CHOICE, log entry 7). -/
def CoreSt.putILine (c : CoreSt) (choice : Nat) (ln : ILine) : CoreSt :=
  let there := (List.range c.icache.length).filter fun i => match c.icache[i]? with
    | some x => x.set == ln.set
    | none => false
  if c.iways ln.set = 0 then c
  else if there.length < c.iways ln.set then { c with icache := ln :: c.icache }
  else { c with icache := ln :: c.icache.eraseIdx (there.getD (Config.fetchVictim choice there.length % there.length) 0) }

/-- Fill the lines of a fetch that are not cached; host and peer memory among them, since R50 speaks of the L1 and L2 that hold data
(DESIGN CHOICE, log entry 7). -/
def State.fillILines (s : State) (core cls : Nat) (ls : List Loc) : State :=
  ((ls.map fun l => (l.key / 256 * 256, l.iset)).eraseDups).foldl (fun s b =>
    if ((s.core core).iline b.1).isSome then s
    else
      let s := s.l2TouchAll (allSectors.map fun q => b.1 + 64 * q) cls false
      s.updCore core fun c => c.putILine s.choice (s.newILine b.1 b.2)) s

/-- How a fetch ends. -/
inductive Fetched where
  | word (s : State) (iw : IWord)
  | stall (s : State)
  | trap (cause : Byte) (detail : DWord)
  deriving DecidableEq, Repr

/-- Fetch the word at the PC of a slot (R222 step 1); an instruction that waits was fetched when it issued (R281;
DEDUCED, log entry 46). -/
def State.fetch (s : State) (wi : Nat) (isB : Bool) : Fetched :=
  let w := s.wave wi
  if (w.slot isB).waiting then .word s (w.slot isB).word else
  let b := s.block w.block
  let g := s.grid b.grid
  let sp : Space := ⟨g.vm, g.asid, b.svc, b.svc⟩
  let pc := (w.path isB).pc.toNat
  let vas := span pc 12
  let u := tlbFetch b.core
  if badFetch pc then .trap Cause.badAddress (w.path isB).pc
  else match s.misses u sp .fetch vas with
    | va :: more =>
      .stall (s.setWave wi { w with stalls := (va :: more).map fun va => ⟨isB, sp, va, .fetch, none⟩ })
    | [] =>
      let ls := vas.filterMap fun va => s.lookup u sp .fetch va
      let s := if ls.any fun l => l.key < windowTop && s.granuleErr l.key != 0 then s.l2TouchAll (ls.map Loc.key) b.cls.val false else s
      let r := s.fetchBytes b.icache (ls.map Loc.key)
      if r.2 then .trap Cause.fetchPoison (w.path isB).pc
      else .word (s.fillILines b.icache b.cls.val ls) (wordOfBytes r.1)

/-- The trap record of a fetch or decode trap: every launched lane of the issuing slot (R222). -/
def State.earlyTrap (s : State) (wi : Nat) (isB : Bool) (cause : Byte) (detail : DWord) (iw : IWord) : State :=
  let w := s.wave wi
  s.takeTrapAt wi ⟨cause, isB, (w.path isB).mask &&& w.launched, (w.path isB).pc, detail, iw⟩

end Sys2Proof.Machine
end

