-- ==== Sys2Proof/Machine/LaneMem.lean ====
section
/-! DEFINITION. The memory instructions of groups 0x9 and 0xA: LD, ST, LDP, DISCARD, PREF, ATOM, RED and the fences
(R306-R316, R44, R115, R123-R125, R128, R131). -/
namespace Sys2Proof.Machine

/-! ## Widths and values (R308) -/

/-- Bytes of an access. -/
def Ty.bytes : Ty → Nat
  | .i8 | .n8 => 1
  | .i16 | .n16 => 2
  | .b64 => 8
  | .b128 => 16
  | _ => 4

/-- Registers of an access. -/
def Ty.words (ty : Ty) : Nat := (Ty.bytes ty + 3) / 4

/-- The registers of a load: extended below 32 bits (R308). -/
def loadWords (ty : Ty) (bs : List Byte) : List Word :=
  match ty with
  | .i8 => [(BitVec.ofNat 8 (leNat bs)).signExtend 32]
  | .i16 => [(BitVec.ofNat 16 (leNat bs)).signExtend 32]
  | _ => (List.range (Ty.words ty)).map fun j => .ofNat 32 (leNat bs / 2 ^ (32 * j))

/-- Bytes of a store: the low bits of its source. -/
def Ctx.storeVal (c : Ctx) (ty : Ty) (d : Operand) (l : Nat) : List Byte :=
  let v := (List.range (Ty.words ty)).foldr (fun j a => (c.w.readAt d l j).toNat + 2 ^ 32 * a) 0
  leBytes (Ty.bytes ty) v

/-! ## LD and ST -/

/-- B as a source of an access: the high word of a global address, which a scratchpad access does not read (R177, R306; DEDUCED, log
entry 45). -/
def bSource (scr : Bool) (b : Operand) : Option Operand := if scr then none else some b

/-- The part of a counted instruction that writes registers. -/
def Ctx.later (c : Ctx) (ctr : Ctr) (ws : List PendWrite) : Counted :=
  { ctr := ctr, lanes := c.act, writes := ws, pc := c.pc, slotB := c.isB, iw := c.iw }

/-- The keys a destination of `n` words has in the active lanes. -/
def Ctx.destOf (c : Ctx) (d : Operand) (n : Nat) : List (Nat × Nat) :=
  (lanesOf c.act).flatMap fun l => (c.w.dstKeys d l n).map fun k => (l, k)

/-- LD from the scratchpad. -/
def Ctx.ldScr (s : State) (c : Ctx) (ty : Ty) (i : Instr) (d a : Operand) (accs : List (Nat × Nat)) : Out :=
  let val := fun l =>
    let o := ((accs.find? fun x => x.1 == l).map Prod.snd).getD 0
    let bs := (span o (Ty.bytes ty)).map c.b.scrByte
    (loadWords ty (bs.map Prod.fst), bs.any Prod.snd)
  let n := { c.later .ld (c.w.pending c.act d val) with
    again := some i
    vals := accs.map fun x => (x.1, [BitVec.ofNat 64 x.2])
    keys := c.destOf d (Ty.words ty) }
  let w := c.w.count c.act n
  scrTurn s c.b (.next ((s.retire c w (some a) none).occupyScr c.wi c.b (bankClk accs (Ty.bytes ty))))

/-- Read every active lane's bytes in order. -/
def Ctx.loadFrom (s : State) (c : Ctx) (home : Bool) (w : Nat) :
    List (Nat × Nat) → State × List (Nat × List Byte × Bool)
  | [] => (s, [])
  | (l, a) :: t =>
    let r := s.loadBytes c.b.core c.b.cls.val home ((span a w).map fun va => s.locOf c .load va)
    let rest := Ctx.loadFrom r.1 c home w t
    (rest.1, (l, r.2.1, r.2.2) :: rest.2)

/-- The state as an access of a wave finds it: one of a service core may meet spills under way (R192). -/
def State.asRead (s : State) (c : Ctx) : State := if c.b.svc then s.spillRead (clusterOf c.b.core) else s

/-- Read every active lane's bytes in order. -/
def Ctx.loadAll (s : State) (c : Ctx) (home : Bool) (w : Nat) (accs : List (Nat × Nat)) : State × List (Nat × List Byte × Bool) :=
  c.loadFrom (s.asRead c) home w accs

/-- The bytes a lane read. -/
def laneBytes (rs : List (Nat × List Byte × Bool)) (l : Nat) : List Byte × Bool :=
  ((rs.find? fun x => x.1 == l).map Prod.snd).getD ([], false)

/-- LD from global memory or the Landing window: an acquiring load clears the L1 and reads at the home (R115). -/
def Ctx.ldGlobal (s : State) (c : Ctx) (m : MemMod) (i : Instr) (d a b : Operand) (accs : List (Nat × Nat)) : Out :=
  let wide := m.ord == .acq && wideScope m.scope
  let s0 := if wide then s.acquire c.b.core m.scope else s
  let r := c.loadAll s0 wide (Ty.bytes m.ty) accs
  let val := fun l => let x := laneBytes r.2 l; (loadWords m.ty x.1, x.2)
  let n := { c.later .ld (c.w.pending c.act d val) with
    again := some i
    vals := accs.map fun x => (x.1, [BitVec.ofNat 64 x.2])
    keys := c.destOf d (Ty.words m.ty) }
  .next (r.1.retire c (c.w.count c.act n) (some a) (some b))

/-- LD (R308, R309). -/
def execLd (h : Hdr) (m : MemMod) (d a b : Operand) (off : Word) (s : State) : Out :=
  issue s h fun c => counted s c .ld <|
    let accs := c.accs m.scr a b off
    let w := Ty.bytes m.ty
    guardTraps s c
      [c.regCheck [(d, Ty.words m.ty)] [(a, 1), (b, 1)], c.boundCheck s m.scr accs w,
       if m.scr || m.ord != .plain then alignCheck accs w else none, c.lockCheck s false m.scr accs w]
      (if !c.anyActive then .next (s.retire c c.w (some a) (bSource m.scr b))
       else if m.scr then c.ldScr s m.ty (.ld h m d a b off) d a accs
       else reach s c .load accs w (c.ldGlobal s m (.ld h m d a b off) d a b accs))

/-- The bytes of a store, lanes in ascending order, so that the highest lane's byte remains (R44). -/
def Ctx.storeList (c : Ctx) (ty : Ty) (d : Operand) (accs : List (Nat × Nat)) : List (Nat × Byte) :=
  accs.flatMap fun x => writesFrom x.2 (c.storeVal ty d x.1)

/-- ST to global memory or the Landing window; a releasing store at cluster scope or wider is performed at its home after
the release, and copies in the L1 are updated (R115). -/
def Ctx.stGlobal (s : State) (c : Ctx) (m : MemMod) (d : Operand) (accs : List (Nat × Nat)) : State :=
  let kvs := (c.storeList m.ty d accs).map fun kv => (s.locOf c .store kv.1, kv.2)
  if m.ord == .rel && wideScope m.scope then
    let dk := kvs.map fun kv => (kv.1.key, kv.2)
    ((s.release c.b.core c.b.cls.val m.scope).homeWrite c.b.cls.val dk).l1Update c.b.core dk
  else s.storeBytes c.b.core c.b.cls.val kvs

/-- ST (R308, R309). -/
def execSt (h : Hdr) (m : MemMod) (d a b : Operand) (off : Word) (s : State) : Out :=
  issue s h fun c => counted s c .st <|
    let accs := c.accs m.scr a b off
    let w := Ty.bytes m.ty
    let done := c.w.count c.act (c.later .st [])
    guardTraps s c
      [c.regCheck [] [(d, Ty.words m.ty), (a, 1), (b, 1)], c.boundCheck s m.scr accs w,
       if m.scr || m.ord != .plain then alignCheck accs w else none, c.lockCheck s true m.scr accs w]
      (if !c.anyActive then .next (s.retire c c.w (some a) (bSource m.scr b))
       else if m.scr then
        scrTurn s c.b (.next (((s.retire c done (some a) none).updBlock c.bi fun b => b.scrWrite (c.storeList m.ty d accs)).occupyScr
          c.wi c.b (bankClk accs (Ty.bytes m.ty))))
       else reach s c .store accs w (.next ((c.stGlobal s m d accs).retire c done (some a) (some b))))

/-! ## LDP (R311) -/

/-- The base and size of a bound parameter window. -/
def Ctx.window (c : Ctx) (n : Nat) : Option (Nat × Nat) :=
  if recPwmask c.g.record / 2 ^ n % 2 = 1 then (c.g.pw[n]?).map fun e => (e.1.toNat, e.2) else none

/-- The accesses a lane makes to a window: one byte each, inside it. -/
def ldpVas (base size o w : Nat) : List Nat :=
  ((span o w).filter fun p => decide (p < size)).map fun p => base + p

/-- A byte of memory in the `n`-th kept copy, counting from 1; without one, the byte given (R26). -/
def Grid.windowByte (g : Grid) (n key : Nat) (now : Byte) : Byte :=
  if n = 0 then now else ((g.held[n - 1]?).map fun m => Sparse.get 0 m key).getD now

/-- The byte of a bound window that a lane's LDP reads: a cache may hold a word of it as it stood at acceptance or since, and
no store renews that copy (R26; DESIGN CHOICE, log entry 49). -/
def Ctx.windowByte (c : Ctx) (s : State) (l va : Nat) (now : Byte) : Byte :=
  c.g.windowByte (Config.windowOld s.choice l (va / 4)) (s.locOf c .load va).key now

/-- The bytes that the lanes of an LDP read, then the rest with each lane's result; bytes beyond the window read 0. -/
def ldpReach (s : State) (c : Ctx) (ty : Ty) (base size : Nat) (offs bytes : List (Nat × Nat))
    (k : State → (Nat → List Word × Bool) → Out) : Out :=
  reach s c .load bytes 1 <|
    let r := c.loadAll s false 1 bytes
    let byteAt := fun l p =>
      if p < size then
        match (bytes.zip r.2).find? fun x => x.1.1 == l && x.1.2 == base + p with
        | some x => (c.windowByte s l (base + p) (x.2.2.1.getD 0 0), x.2.2.2)
        | none => (0, false)
      else ((0 : Byte), false)
    k r.1 fun l =>
      let o := ((offs.find? fun x => x.1 == l).map Prod.snd).getD 0
      let bs := (span o (Ty.bytes ty)).map (byteAt l)
      (loadWords ty (bs.map Prod.fst), bs.any Prod.snd)

/-- The bytes that the lanes of an LDP access. -/
def ldpBytes (base size : Nat) (offs : List (Nat × Nat)) (w : Nat) : List (Nat × Nat) :=
  offs.flatMap fun x => (ldpVas base size x.2 w).map fun va => (x.1, va)

/-- LDP: a lane that reaches beyond the window sets PWOOB. -/
def execLdp (h : Hdr) (ty : Ty) (n : BitVec 4) (off : BitVec 28) (d a : Operand) (s : State) : Out :=
  issue s h fun c => counted s c .ld <|
    let w := Ty.bytes ty
    let pw := c.window n.toNat
    let base := (pw.getD (0, 0)).1
    let size := (pw.getD (0, 0)).2
    let offs := (lanesOf c.act).map fun l => (l, (c.w.read a l).toNat + off.toNat)
    let bytes := ldpBytes base size offs w
    guardTraps s c
      [c.regCheck [(d, Ty.words ty)] [(a, 1)],
       if pw.isNone && c.anyActive then some (Cause.unboundWindow, c.act, 0) else none,
       c.boundCheck s false bytes 1, c.lockCheck s false false bytes 1]
      (if !c.anyActive then .next (s.retire c c.w (some a) none)
       else ldpReach s c ty base size offs bytes fun s1 val =>
        let oob := offs.any fun x => decide (size < x.2 + w)
        let nd := { c.later .ld (c.w.pending c.act d val) with
          again := some (.ldp h ty n off d a)
          vals := offs.map fun x => (x.1, [BitVec.ofNat 64 x.2])
          keys := c.destOf d (Ty.words ty) }
        .next (s1.retire c ({ c.w with pwoob := c.w.pwoob || oob }.count c.act nd) (some a) none))

/-! ## Atomics (R128, R312, R313) -/

/-- The operations of ATOM and RED. -/
inductive AtomOp where
  | add | min | max | and | or | xor | exch | cas | faddF32 | faddB2
  deriving DecidableEq, Repr

/-- One step of a group (R128): operand `v`, compare operand `cmp`. -/
def atomStep (op : AtomOp) (ty : Ty) (acc v cmp : Nat) : Nat :=
  let n := 8 * Ty.bytes ty
  let sg := fun x : Nat => if ty == .i32 then (BitVec.ofNat 32 x).toInt else (x : Int)
  match op with
  | .add => (acc + v) % 2 ^ n
  | .min => if sg v < sg acc then v else acc
  | .max => if sg acc < sg v then v else acc
  | .and => acc &&& v
  | .or => acc ||| v
  | .xor => acc ^^^ v
  | .exch => v
  | .cas => if acc = cmp then v else acc
  | .faddF32 => (fadd32 (.ofNat 32 acc) (.ofNat 32 v)).toNat
  | .faddB2 =>
    let half := fun i => bf16.enc ((bf16.dec (acc / 2 ^ i % 2 ^ 16)).add (bf16.dec (v / 2 ^ i % 2 ^ 16)))
    half 0 + 2 ^ 16 * half 16

/-- A 32-bit or 64-bit data operand. -/
def Ctx.atomVal (c : Ctx) (ty : Ty) (o : Operand) (l : Nat) : Nat :=
  if ty == .b64 then (c.w.read64 o l).toNat else (c.w.read o l).toNat

/-- The signed offset of an atomic (R312). -/
def atomOff (off : BitVec 12) : Word := off.signExtend 32

/-- What a lane of an atomic names: its location, data and compare values. -/
structure AtomLane where
  lane : Nat
  keys : List Nat
  data : Nat
  cmp : Nat
  deriving DecidableEq, Repr

/-- Global atomics at their homes, lanes in ascending order (R125, R128): the old value of each lane, with poison.  The home first
obtains the plain form of a compressed line (R107), and a poisoned sector is left unchanged (R70). -/
def State.atomGlobal (s : State) (cls : Nat) (op : AtomOp) (ty : Ty) : List AtomLane → State × List (Nat × Nat × Bool)
  | [] => (s, [])
  | x :: t =>
    let s := if s.cmp.stored = [] then s else (hbmLines x.keys).foldl (fun s ln => s.plainLine cls ln) s
    let s := s.l2TouchAll x.keys cls false
    let old := leNat (s.bytesAt x.keys)
    let bad := x.keys.any s.secPoison
    let s1 := if bad then s
      else s.homeWrite cls (x.keys.zip (leBytes (Ty.bytes ty) (atomStep op ty old x.data x.cmp)))
    let r := s1.atomGlobal cls op ty t
    (r.1, (x.lane, old, bad) :: r.2)

/-- Scratchpad atomics, with the same grouping. -/
def Block.atomScr (b : Block) (op : AtomOp) (ty : Ty) : List AtomLane → Block × List (Nat × Nat × Bool)
  | [] => (b, [])
  | x :: t =>
    let bs := x.keys.map b.scrByte
    let old := leNat (bs.map Prod.fst)
    let bad := bs.any Prod.snd
    let b1 := if bad then b
      else b.scrWrite (x.keys.zip (leBytes (Ty.bytes ty) (atomStep op ty old x.data x.cmp)))
    let r := b1.atomScr op ty t
    (r.1, (x.lane, old, bad) :: r.2)

/-- The old values as pending writes of a destination; none for RED and for ZERO. -/
def Ctx.atomWrites (c : Ctx) (ty : Ty) (d : Option Operand) (rs : List (Nat × Nat × Bool)) : List PendWrite :=
  match d with
  | none => []
  | some d => c.w.pending c.act d fun l =>
      let x := ((rs.find? fun r => r.1 == l).map Prod.snd).getD (0, false)
      ((List.range (Ty.words ty)).map fun j => .ofNat 32 (x.1 / 2 ^ (32 * j)), x.2)

/-- The body of every ATOM and RED: `d` is the destination of an ATOM. -/
def atomic (s : State) (h : Hdr) (op : AtomOp) (m : MemMod) (d : Option Operand) (a b : Operand) (off : BitVec 12)
    (cmp : Operand) (x : Operand) : Out :=
  issue s h fun c =>
    let ctr := if d.isSome then Ctr.ld else Ctr.st
    counted s c ctr <|
    let w := Ty.bytes m.ty
    let n := Ty.words m.ty
    let accs := c.accs m.scr a b (atomOff off)
    let dst := d.toList.map fun o => (o, n)
    let srcs := [(a, 1), (b, 1), (x, n)] ++ (if op == .cas then [(cmp, n)] else [])
    let lanes := fun (keys : Nat → List Nat) => accs.map fun y =>
      (⟨y.1, keys y.2, c.atomVal m.ty x y.1, if op == .cas then c.atomVal m.ty cmp y.1 else 0⟩ : AtomLane)
    guardTraps s c
      [c.regCheck dst srcs, c.boundCheck s m.scr accs w, alignCheck accs w, c.lockCheck s true m.scr accs w]
      (if !c.anyActive then .next (s.retire c c.w (some a) (bSource m.scr b))
       else if m.scr then
        let r := c.b.atomScr op m.ty (lanes fun o => span o w)
        let wv := c.w.count c.act (c.later ctr (c.atomWrites m.ty d r.2))
        scrTurn s c.b (.next ((((s.retire c wv (some a) none)).setBlock c.bi r.1).occupyScr c.wi c.b (bankClk accs w)))
       else reach s c .atomic accs w <|
        let rel := m.ord == .rel || m.ord == .ar
        let acq := m.ord == .acq || m.ord == .ar
        let s0 := s.asRead c
        let s1 := if rel then s0.release c.b.core c.b.cls.val m.scope else s0
        let ls := lanes fun va => (span va w).map fun v => (s1.locOf c .atomic v).key
        let s2 := s1.l1Atomic c.b.core c.b.cls.val ((ls.flatMap AtomLane.keys).filter fun k => decide (k < hostBase))
        let r := s2.atomGlobal c.b.cls.val op m.ty ls
        let s3 := if acq then r.1.acquire c.b.core m.scope else r.1
        .next (s3.retire c (c.w.count c.act (c.later ctr (c.atomWrites m.ty d r.2))) (some a) (some b)))

/-- ATOM.add. -/
def execAtomAdd (h : Hdr) (m : MemMod) (d a b : Operand) (off : BitVec 12) (x : Operand) (s : State) : Out :=
  atomic s h .add m (some d) a b off .zero x
/-- ATOM.min. -/
def execAtomMin (h : Hdr) (m : MemMod) (d a b : Operand) (off : BitVec 12) (x : Operand) (s : State) : Out :=
  atomic s h .min m (some d) a b off .zero x
/-- ATOM.max. -/
def execAtomMax (h : Hdr) (m : MemMod) (d a b : Operand) (off : BitVec 12) (x : Operand) (s : State) : Out :=
  atomic s h .max m (some d) a b off .zero x
/-- ATOM.and. -/
def execAtomAnd (h : Hdr) (m : MemMod) (d a b : Operand) (off : BitVec 12) (x : Operand) (s : State) : Out :=
  atomic s h .and m (some d) a b off .zero x
/-- ATOM.or. -/
def execAtomOr (h : Hdr) (m : MemMod) (d a b : Operand) (off : BitVec 12) (x : Operand) (s : State) : Out :=
  atomic s h .or m (some d) a b off .zero x
/-- ATOM.xor. -/
def execAtomXor (h : Hdr) (m : MemMod) (d a b : Operand) (off : BitVec 12) (x : Operand) (s : State) : Out :=
  atomic s h .xor m (some d) a b off .zero x
/-- ATOM.exch. -/
def execAtomExch (h : Hdr) (m : MemMod) (d a b : Operand) (off : BitVec 12) (x : Operand) (s : State) : Out :=
  atomic s h .exch m (some d) a b off .zero x
/-- ATOM.cas. -/
def execAtomCas (h : Hdr) (m : MemMod) (d a b : Operand) (off : BitVec 12) (cmp x : Operand) (s : State) : Out :=
  atomic s h .cas m (some d) a b off cmp x
/-- ATOM.fadd.f32. -/
def execAtomFaddF32 (h : Hdr) (m : MemMod) (d a b : Operand) (off : BitVec 12) (x : Operand) (s : State) : Out :=
  atomic s h .faddF32 m (some d) a b off .zero x
/-- ATOM.fadd.b2. -/
def execAtomFaddB2 (h : Hdr) (m : MemMod) (d a b : Operand) (off : BitVec 12) (x : Operand) (s : State) : Out :=
  atomic s h .faddB2 m (some d) a b off .zero x
/-- RED.add. -/
def execRedAdd (h : Hdr) (m : MemMod) (a b : Operand) (off : BitVec 12) (x : Operand) (s : State) : Out :=
  atomic s h .add m none a b off .zero x
/-- RED.min. -/
def execRedMin (h : Hdr) (m : MemMod) (a b : Operand) (off : BitVec 12) (x : Operand) (s : State) : Out :=
  atomic s h .min m none a b off .zero x
/-- RED.max. -/
def execRedMax (h : Hdr) (m : MemMod) (a b : Operand) (off : BitVec 12) (x : Operand) (s : State) : Out :=
  atomic s h .max m none a b off .zero x
/-- RED.and. -/
def execRedAnd (h : Hdr) (m : MemMod) (a b : Operand) (off : BitVec 12) (x : Operand) (s : State) : Out :=
  atomic s h .and m none a b off .zero x
/-- RED.or. -/
def execRedOr (h : Hdr) (m : MemMod) (a b : Operand) (off : BitVec 12) (x : Operand) (s : State) : Out :=
  atomic s h .or m none a b off .zero x
/-- RED.xor. -/
def execRedXor (h : Hdr) (m : MemMod) (a b : Operand) (off : BitVec 12) (x : Operand) (s : State) : Out :=
  atomic s h .xor m none a b off .zero x
/-- RED.fadd.f32. -/
def execRedFaddF32 (h : Hdr) (m : MemMod) (a b : Operand) (off : BitVec 12) (x : Operand) (s : State) : Out :=
  atomic s h .faddF32 m none a b off .zero x
/-- RED.fadd.b2. -/
def execRedFaddB2 (h : Hdr) (m : MemMod) (a b : Operand) (off : BitVec 12) (x : Operand) (s : State) : Out :=
  atomic s h .faddB2 m none a b off .zero x

/-! ## Fences (R123, R124, R314) -/

/-- FENCE: its cache actions are complete before the wave's next instruction (DEDUCED, log entry 4). -/
def execFence (h : Hdr) (m : MemMod) (s : State) : Out :=
  issue s h fun c =>
    let s1 := s.retire c c.w none none
    if !c.anyActive then .next s1
    else
      let s2 := if m.ord == .rel || m.ord == .ar then s1.release c.b.core c.b.cls.val m.scope else s1
      .next (if m.ord == .acq || m.ord == .ar then s2.acquire c.b.core m.scope else s2)

/-- FENCEO: one issue slot, no cache (R124). -/
def execFenceo (h : Hdr) (s : State) : Out := issue s h fun c => .next (s.retire c c.w none none)

/-- FENCER: every core in scope sends its dirty bytes home and clears its valid bits (R124). -/
def execFencer (h : Hdr) (m : MemMod) (s : State) : Out :=
  issue s h fun c =>
    let s1 := s.retire c c.w none none
    .next (if c.anyActive then
        (scopeCores m.scope c.b.core).foldl (fun s k => (s.release k c.b.cls.val .device).acquire k .device) s1
      else s1)

/-! ## DISCARD (R131, R315) and PREF (R316) -/

/-- Zero some sectors at their homes: a compressed line that is covered whole becomes a constant block, one covered in part
is made plain first and stays dirty (R107, R131). -/
def State.homeDiscard (s : State) (cls : Nat) (secs : List Nat) : State :=
  let lines := ((secs.filter fun q => isHbm (64 * q)).map fun q => q / 4).eraseDups
  let whole := fun ln => allSectors.all fun q => secs.contains (4 * ln + q)
  let kept := lines.filter fun ln => s.cmp.stored != [] && s.blockOf ln != [] && !whole ln
  let s := lines.foldl (fun s ln =>
    let b := s.blockOf ln
    if s.cmp.stored = [] || b = [] then s
    else if whole ln then
      { s.setBlockOf ln (blockHeader 0 (blockExp b) 0 0 0 0 ++ [0, 0, 0, 0]) with
        l2 := { s.l2 with lines := s.l2.lines.filter fun e => e.loc != 256 * ln } }
    else s.plainLine cls ln) s
  { s with
    mem := s.mem.filter fun c => !secs.contains (c.1 / 64)
    poison := s.poison.filter fun p => !secs.contains p.1
    hbmErr := s.hbmErr.filter fun g => !secs.contains (g.1 / 2)
    l2 := { s.l2 with lines := s.l2.lines.map fun e =>
      if kept.contains (e.loc / 256) then e
      else { e with dirty := cleanBytes e.dirty (allSectors.filter fun q => secs.contains (e.loc / 64 + q)) } } }

/-- The sectors of a lane's range: their addresses. -/
def discardVas (a len : Nat) : List Nat := (List.range (len / 64)).map fun i => a + 64 * i

/-- DISCARD. -/
def execDiscard (h : Hdr) (d a b : Operand) (off : Word) (s : State) : Out :=
  issue s h fun c => counted s c .st <|
    let accs := c.accs false a b off
    let len := fun l => (c.w.read d l).toNat
    let bad := accs.filter fun x => !s.rangeOk x.2 (len x.1)
    let odd := accs.filter fun x => x.2 % 64 != 0 || len x.1 % 64 != 0
    let secs := accs.flatMap fun x => (discardVas x.2 (len x.1)).map fun va => (x.1, va)
    guardTraps s c
      [c.regCheck [] [(d, 1), (a, 1), (b, 1)],
       match bad with
       | [] => none
       | x :: t => some (Cause.badAddress, maskOfList ((x :: t).map Prod.fst), .ofNat 64 x.2),
       match odd with
       | [] => none
       | x :: t => some (Cause.alignment, maskOfList ((x :: t).map Prod.fst), .ofNat 64 x.2),
       c.lockCheck s true false secs 64]
      (if !c.anyActive then .next (s.retire c c.w (some a) (some b))
       else reach s c .store secs 64 <|
        let ks := secs.map fun x => (s.locOf c .store x.2).key
        let own := (ks.map fun k => k / 64).eraseDups
        let keep := own.filter fun q => s.keepsWrite (64 * q)
        let s1 := s.l1Discard c.b.core own
        .next ((s1.homeDiscard c.b.cls.val keep).retire c (c.w.count c.act (c.later .st [])) (some a) (some b)))

/-- What PREF brings for one address: a line into the L1, or only into its home L2 (R316). -/
def State.prefetch (s : State) (c : Ctx) (l2 : Bool) (va : Nat) : State :=
  if decide (landingVa ≤ va) || lockHits (s.core c.b.core).locks c.g.vm c.g.asid true 0 (va / 256 * 256) 256 != [] then s
  else match s.translate c.unit c.b.cls.val c.space .load va with
    | .ok s' l =>
      let ks := allSectors.map fun q => l.key / 256 * 256 + 64 * q
      if l.bypass || l2 then ks.foldl (fun s k => s.l2Touch k c.b.cls.val false) s'
      else s'.l1Ensure c.b.core c.b.cls.val l.cmp ks
    | _ => s

/-- PREF: it changes no value that a read can return, and never traps after its register checks. -/
def execPref (h : Hdr) (l2 : Bool) (a b : Operand) (off : Word) (s : State) : Out :=
  issue s h fun c =>
    guardTraps s c [c.regCheck [] [(a, 1), (b, 1)]]
      (.next (((c.accs false a b off).foldl (fun s x => s.prefetch c l2 x.2) s).retire c c.w (some a) (some b)))

end Sys2Proof.Machine
end

