-- ==== Sys2Proof/Machine/Tex.lean ====
section
/-! DEFINITION. Texture: TEX and TEXQ (R331-R335). -/
namespace Sys2Proof.Machine

/-! ## FP32 helpers (R235, R445) -/

/-- A division, correctly rounded: the quotient with more bits than any format keeps, and a sticky bit. -/
def FNum.div (a b : FNum) : FNum :=
  match a, b with
  | .nan, _ => .nan
  | _, .nan => .nan
  | .inf _, .inf _ => .nan
  | .inf s, .fin t _ _ => .inf (s != t)
  | .fin s _ e, .inf t => .fin (s != t) 0 e
  | .fin s m e, .fin t n g =>
    if n = 0 then (if m = 0 then .nan else .inf (s != t))
    else
      let k := 64 + Nat.log2 n
      let q := m * 2 ^ k / n
      let sticky := if m * 2 ^ k % n = 0 then 0 else 1
      .fin (s != t) (2 * q + sticky) (e - g - k - 1)

def fdiv32 (a b : Word) : Word := .ofNat 32 (fp32.enc ((fp32.dec a.toNat).div (fp32.dec b.toNat)))
def fmin32 (a b : Word) : Word := .ofNat 32 (fp32.minPat false a.toNat b.toNat)
def fmax32 (a b : Word) : Word := .ofNat 32 (fp32.minPat true a.toNat b.toNat)
def fneg32 (a : Word) : Word := a ^^^ 0x80000000
/-- A whole number as FP32. -/
def fnat32 (n : Nat) : Word := .ofNat 32 (fp32.enc (.fin false n 0))
/-- A signed number n * 2^e as FP32. -/
def fint32 (n e : Int) : Word := .ofNat 32 (fp32.enc (ofIntAt n e false))

/-- Order of FP32 words; false where one is a NaN. -/
def flt32 (a b : Word) : Bool := ((fp32.dec a.toNat).cmp (fp32.dec b.toNat)).1
def fle32 (a b : Word) : Bool :=
  let c := (fp32.dec a.toNat).cmp (fp32.dec b.toNat)
  c.1 || c.2
def fzero32 (a : Word) : Bool := a.toNat % 2 ^ 31 == 0

/-- log2, rounded to nearest (R333, DEDUCED, log entry 16). -/
def log2Near (a : Word) : Word :=
  match fp32.dec a.toNat with
  | .nan => 0x7FC00000
  | .inf s => if s then 0x7FC00000 else a
  | .fin s m e =>
    if m = 0 then 0xFF800000
    else if s then 0x7FC00000
    else
      let k := Nat.log2 m
      nearest32 ((e + k) * 2 ^ 100 + (log2Bits 100 (m * 2 ^ (fixBits - k)) 0 : Nat)) (-100)

/-- The floor of a finite number. -/
def floorOf (s : Bool) (m : Nat) (e : Int) : Int :=
  if 0 ≤ e then intAt s m e 0 else (if s then -(m : Int) else m) / 2 ^ (-e).toNat

/-! ## The descriptor (R331) -/

/-- A texture descriptor's fields. -/
structure TexDesc where
  base : Nat
  w : Nat
  h : Nat
  layers : Nat
  lvm1 : Nat
  fmt : Nat
  addrU : Nat
  addrV : Nat
  filter : Nat
  aniso : Nat
  stride : Nat
  minlod : Nat
  maxlod : Nat
  deriving DecidableEq, Repr

/-- Word `i` of some bytes. -/
def byteWord64 (bs : List Byte) (i : Nat) : DWord := .ofNat 64 (leNat ((bs.drop (8 * i)).take 8))

def texDescOf (bs : List Byte) : TexDesc :=
  let w0 := byteWord64 bs 0
  let w1 := byteWord64 bs 1
  let w2 := byteWord64 bs 2
  { base := bits w0 55 0, w := bits w1 63 48 + 1, h := bits w1 47 32 + 1, layers := bits w1 31 20 + 1, lvm1 := bits w1 19 16,
    fmt := bits w1 15 12, addrU := bits w1 11 10, addrV := bits w1 9 8, filter := bits w1 7 6, aniso := bits w1 5 1,
    stride := bits w2 63 32, minlod := bits w2 31 24, maxlod := bits w2 23 16 }

/-- TEX_DESC (R331). -/
def texDescBad (bs : List Byte) : Bool :=
  let t := texDescOf bs
  decide (5 < t.fmt) || t.aniso == 0 || decide (16 < t.aniso)
    || bits (byteWord64 bs 0) 63 56 != 0 || (byteWord64 bs 1).getLsbD 0 || bits (byteWord64 bs 2) 15 0 != 0
    || t.base % 256 != 0 || t.stride % 256 != 0

/-- Bytes of a texel. -/
def TexDesc.texel (t : TexDesc) : Nat := [1, 4, 2, 8, 4, 16].getD t.fmt 1
def TexDesc.lw (t : TexDesc) (k : Nat) : Nat := max 1 (t.w / 2 ^ k)
def TexDesc.lh (t : TexDesc) (k : Nat) : Nat := max 1 (t.h / 2 ^ k)
/-- Bytes of a row of a level. -/
def TexDesc.row (t : TexDesc) (k : Nat) : Nat := (t.lw k * t.texel + 255) / 256 * 256
/-- The VA of a texel of a level and layer. -/
def TexDesc.va (t : TexDesc) (k layer x z : Nat) : Nat :=
  t.base + layer * t.stride + (List.range k).foldl (fun a j => a + t.row j * t.lh j) 0 + z * t.row k + x * t.texel

/-! ## Footprints (R333) -/

/-- A lane's footprint: taps, the clamped level of detail, the axes, and the gradient that taps follow. -/
structure Footprint where
  n : Nat
  lod : Word
  major : Word
  minor : Word
  gm : Word × Word
  deriving DecidableEq, Repr

/-- sqrt((W·g.u)^2 + (H·g.v)^2). -/
def TexDesc.rho (t : TexDesc) (g : Word × Word) : Word :=
  let x := fmul32 (fnat32 t.w) g.1
  let y := fmul32 (fnat32 t.h) g.2
  fsqrtVal (fadd32 (fmul32 x x) (fmul32 y y))

/-- The least whole number that is not below a quotient; `big` for an infinity, 1 for a NaN. -/
def ceilCount (big : Nat) (q : Word) : Nat :=
  match fp32.dec q.toNat with
  | .nan => 1
  | .inf _ => big
  | .fin s m e => (-(floorOf (!s) m e)).toNat

def TexDesc.footprint (t : TexDesc) (cone : Bool) (vc vg : List Word) : Footprint :=
  let g := fun i => vg.getD i 0
  let w := fmul32 (g 0) (g 1)
  let gx : Word × Word := if cone then (fmul32 w (g 2), 0) else (g 0, g 1)
  let gy : Word × Word := if cone then (0, fmul32 w (g 3)) else (g 2, g 3)
  let rx := t.rho gx
  let ry := t.rho gy
  let major := fmax32 rx ry
  let minor := fmin32 rx ry
  let n := if t.filter < 3 || fzero32 major then 1
    else if fzero32 minor then t.aniso
    else min t.aniso (max 1 (ceilCount t.aniso (fdiv32 major minor)))
  let lod := if fzero32 major then 0xFF800000 else fadd32 (log2Near (fdiv32 major (fnat32 n))) (vc.getD 3 0)
  let hi := fmin32 (fint32 t.maxlod (-4)) (fnat32 t.lvm1)
  ⟨n, fmin32 (fmax32 lod (fint32 t.minlod (-4))) hi, major, minor, if major = rx then gx else gy⟩

/-- The levels a footprint samples, with the weight of the second. -/
def TexDesc.levels (t : TexDesc) (f : Footprint) : List Nat × Word :=
  match fp32.dec f.lod.toNat with
  | .fin s m e =>
    if t.filter < 2 then ([roundAt m e 0], 0)
    else
      let k := (floorOf s m e).toNat
      ([k, min (k + 1) t.lvm1], fsub32 f.lod (fnat32 k))
  | _ => ([0], 0)

/-! ## Samples (R334) -/

/-- The whole and fractional part (in 1/256) of a texel coordinate; for one that is not finite a free value, but that an
infinity lies beyond every texel (DESIGN CHOICE, log entry 16). -/
def texelCoord (wraps : Bool) (x : Word) : Int × Nat :=
  match fp32.dec x.toNat with
  | .fin s m e =>
    let i := floorOf s m e
    let part := intAt s m e (min e (-40)) - i * 2 ^ (-(min e (-40))).toNat
    (i, roundAt part.toNat (min e (-40)) (-8))
  | .inf s => (if wraps then Config.texelOf x else if s then -(2 ^ 300) else 2 ^ 300, Config.texelPart x % 257)
  | .nan => (Config.texelOf x, Config.texelPart x % 257)

/-- A coordinate in a level of size `n` under an address mode; none for the border. -/
def addressed (mode n : Nat) (i : Int) : Option Nat :=
  match mode with
  | 0 => some (i % (n : Int)).toNat
  | 1 => some (min (max i 0) ((n : Int) - 1)).toNat
  | 2 =>
    let k := (i % (2 * n : Int)).toNat
    some (if k < n then k else 2 * n - 1 - k)
  | _ => if 0 ≤ i && decide (i < (n : Int)) then some i.toNat else none

/-- One tap on one level: its texels, none on the border, and the parts a and b; a single texel for point sampling. -/
structure Tap where
  texels : List (Option Nat)
  a : Nat
  b : Nat
  deriving DecidableEq, Repr

/-- A tap centred at (u, v) on a level. -/
def TexDesc.tap (t : TexDesc) (u v : Word) (layer k : Nat) : Tap :=
  let half : Word := 0x3F000000
  let x := fsub32 (fmul32 u (fnat32 (t.lw k))) half
  let z := fsub32 (fmul32 v (fnat32 (t.lh k))) half
  let at' := fun (i j : Int) => do
    let p ← addressed t.addrU (t.lw k) i
    let q ← addressed t.addrV (t.lh k) j
    pure (t.va k layer p q)
  let wrapsU := t.addrU == 0 || t.addrU == 2
  let wrapsV := t.addrV == 0 || t.addrV == 2
  if t.filter = 0 then
    ⟨[at' (texelCoord wrapsU (fadd32 x half)).1 (texelCoord wrapsV (fadd32 z half)).1], 0, 0⟩
  else
    let cx := texelCoord wrapsU x
    let cz := texelCoord wrapsV z
    ⟨[at' cx.1 cz.1, at' (cx.1 + 1) cz.1, at' cx.1 (cz.1 + 1), at' (cx.1 + 1) (cz.1 + 1)], cx.2, cz.2⟩

/-- The layer of a coordinate group. -/
def TexDesc.layer (t : TexDesc) (v : Word) : Nat :=
  (min (max (numToInt true 32 (fp32.dec v.toNat)) 0) (t.layers - 1)).toNat

/-- The taps of a lane: for each tap, one or two levels. -/
def TexDesc.taps (t : TexDesc) (f : Footprint) (vc : List Word) : List (List Tap) :=
  (List.range f.n).map fun (i : Nat) =>
    let k := fdiv32 (fint32 (2 * (i : Int) + 1 - (f.n : Int)) 0) (fnat32 (2 * f.n))
    let u := fadd32 (vc.getD 0 0) (fmul32 k f.gm.1)
    let v := fadd32 (vc.getD 1 0) (fmul32 k f.gm.2)
    (t.levels f).1.map (t.tap u v (t.layer (vc.getD 2 0)))

/-- A texel's four channels in FP32. -/
def TexDesc.channels (t : TexDesc) (bs : List Byte) : List Word :=
  let unorm := fun (b : Byte) => fdiv32 (fnat32 b.toNat) (fnat32 255)
  let half := fun i => cvtVal .f32 .h2 false (.ofNat 32 (leNat ((bs.drop (2 * i)).take 2)))
  let full := fun i => cvtVal .f32 .f32 false (.ofNat 32 (leNat ((bs.drop (4 * i)).take 4)))
  let one : Word := 0x3F800000
  match t.fmt with
  | 0 => [unorm (bs.getD 0 0), 0, 0, one]
  | 1 => (List.range 4).map fun i => unorm (bs.getD i 0)
  | 2 => [half 0, 0, 0, one]
  | 3 => (List.range 4).map half
  | 4 => [full 0, 0, 0, one]
  | _ => (List.range 4).map full

/-- A tap's value from its texels. -/
def Tap.value (p : Tap) (get : Option Nat → List Word) : List Word :=
  match p.texels with
  | [x] => get x
  | _ =>
    let w := fun (i j : Nat) => fint32 ((i * j : Nat) : Int) (-16)
    let ws := [w (256 - p.a) (256 - p.b), w p.a (256 - p.b), w (256 - p.a) p.b, w p.a p.b]
    (List.range 4).map fun ch =>
      match (p.texels.zip ws).map fun x => fmul32 ((get x.1).getD ch 0) x.2 with
      | [] => 0
      | y :: t => t.foldl fadd32 y

/-- r0 + f·(r1 - r0), rounded once (R334). -/
def blend32 (f r0 r1 : Word) : Word :=
  let num := fun (w : Word) => fp32.dec w.toNat
  .ofNat 32 (fp32.enc (((num f).mul ((num r1).add (num r0).neg)).add (num r0)))

/-- A lane's result from its taps (R334). -/
def TexDesc.result (t : TexDesc) (f : Footprint) (taps : List (List Tap)) (get : Option Nat → List Word) : List Word :=
  let one := fun (ts : List Tap) => match ts.map fun p => p.value get with
    | [r] => r
    | r0 :: r1 :: _ => (List.range 4).map fun ch => blend32 (t.levels f).2 (r0.getD ch 0) (r1.getD ch 0)
    | [] => []
  let vs := taps.map one
  (List.range 4).map fun ch =>
    match vs.map fun v => v.getD ch 0 with
    | [] => 0
    | y :: rest => fdiv32 (rest.foldl fadd32 y) (fnat32 f.n)

/-! ## The instructions (R332) -/

/-- The descriptor of a texture instruction, read as a plain uniform load at issue, and its checks. -/
def withTexDesc (s : State) (c : Ctx) (va : Nat) (k : State → List Byte → Bool → Out) : Out :=
  let accs := (lanesOf c.act).map fun l => (l, va)
  guardTraps s c [c.boundCheck s false accs 32]
    (reach s c .load accs 32 <|
      let r := (s.asRead c).loadBytes c.b.core c.b.cls.val false ((span va 32).map fun x => s.locOf c .load x)
      guardTraps s c [if texDescBad r.2.1 then some (Cause.texDesc, c.act, .ofNat 64 va) else none] (k r.1 r.2.1 r.2.2))

/-- The results of a texture read for the lanes: values captured at issue are the groups Vc and Vg of each lane.  A reissued read
is not checked against range locks again. -/
def texSample (s : State) (c : Ctx) (cone : Bool) (va : Nat) (vc vg : Nat → List Word)
    (k : State → (Nat → List Word × Bool) → Out) (locks : Bool := true) : Out :=
  withTexDesc s c va fun s1 desc dp =>
    let t := texDescOf desc
    let lanes := (lanesOf c.act).map fun l =>
      let f := t.footprint cone (vc l) (vg l)
      (l, f, t.taps f (vc l))
    let reads := lanes.flatMap fun x =>
      ((x.2.2.flatMap fun ts => ts.flatMap Tap.texels).filterMap id).eraseDups.map fun p => (x.1, p)
    let accs := (lanesOf c.act).map fun l => (l, va)
    guardTraps s c [c.boundCheck s false reads t.texel, c.lockCheck s false false (if locks then accs else []) 32,
        c.lockCheck s false false (if locks then reads else []) t.texel]
      (reach s c .load reads t.texel <|
        let r := c.loadAll s1 false t.texel reads
        let got := reads.zip r.2
        let texel := fun l va => match got.find? fun x => x.1.1 == l && x.1.2 == va with
          | some x => (x.2.2.1, x.2.2.2)
          | none => ([], false)
        let val := fun l => match lanes.find? fun x => x.1 == l with
          | some x =>
            let get := fun (o : Option Nat) => match o with
              | some va => t.channels (texel l va).1
              | none => [0, 0, 0, 0]
            (t.result x.2.1 x.2.2 get, dp || got.any fun y => y.1.1 == l && y.2.2.2)
          | none => ([], false)
        k r.1 val)

/-- The four words of a group in a lane. -/
def Ctx.group4 (c : Ctx) (o : Operand) (l : Nat) : List Word := (List.range 4).map fun j => c.w.readAt o l j

/-- The counted part of a texture instruction, with what a pre-emption reissues (R392). -/
def Ctx.texLater (c : Ctx) (i : Instr) (d : Operand) (va : Nat) (vals : Nat → List Word) (f : Nat → List Word × Bool) : Counted :=
  { c.later .ld (c.w.pending c.act d f) with
    again := some i
    vals := (lanesOf c.act).map fun l => (l, BitVec.ofNat 64 va :: (vals l).map fun w => w.setWidth 64)
    keys := c.destOf d 4 }

/-- TEX (R332-R334). -/
def execTex (h : Hdr) (cone : Bool) (d a b vg : Operand) (s : State) : Out :=
  issue s h fun c => counted s c .ld <|
    let va := (c.w.read64 a 0).toNat
    guardTraps s c [c.regCheck [(d, 4)] [(a, 2), (b, 4), (vg, 4)]] <|
      if !c.anyActive then .next (s.retire c c.w (some a) (some b))
      else texSample s c cone va (c.group4 b) (c.group4 vg) fun s1 f =>
        let n := c.texLater (.tex h cone d a b vg) d va (fun l => c.group4 b l ++ c.group4 vg l) f
        .next (s1.retire c (c.w.count c.act n) (some a) (some b))

/-- The words of TEXQ.lod (R335). -/
def TexDesc.lodWords (t : TexDesc) (cone : Bool) (vc vg : List Word) : List Word :=
  let f := t.footprint cone vc vg
  [f.lod, .ofNat 32 f.n, f.major, f.minor]

/-- The words of TEXQ.size (R335). -/
def TexDesc.sizeWords (t : TexDesc) (lvl : Word) : List Word :=
  let k := lvl.toNat
  let ok := decide (k ≤ t.lvm1)
  [if ok then .ofNat 32 (t.lw k) else 0, if ok then .ofNat 32 (t.lh k) else 0, .ofNat 32 (t.lvm1 + 1), .ofNat 32 t.layers]

/-- What both forms of TEXQ share: the descriptor's read, then a result per lane from it. -/
def texQuery (s : State) (c : Ctx) (va : Nat) (f : TexDesc → Nat → List Word) (k : State → (Nat → List Word × Bool) → Out)
    (locks : Bool := true) : Out :=
  withTexDesc s c va fun s1 desc dp =>
    guardTraps s c [c.lockCheck s false false (if locks then (lanesOf c.act).map fun l => (l, va) else []) 32]
      (k s1 fun l => (f (texDescOf desc) l, dp))

/-- TEXQ.lod (R332, R335). -/
def execTexqLod (h : Hdr) (cone : Bool) (d a b vg : Operand) (s : State) : Out :=
  issue s h fun c => counted s c .ld <|
    let va := (c.w.read64 a 0).toNat
    guardTraps s c [c.regCheck [(d, 4)] [(a, 2), (b, 4), (vg, 4)]] <|
      if !c.anyActive then .next (s.retire c c.w (some a) (some b))
      else texQuery s c va (fun t l => t.lodWords cone (c.group4 b l) (c.group4 vg l)) fun s1 f =>
        let n := c.texLater (.texqLod h cone d a b vg) d va (fun l => c.group4 b l ++ c.group4 vg l) f
        .next (s1.retire c (c.w.count c.act n) (some a) (some b))

/-- TEXQ.size (R332, R335). -/
def execTexqSize (h : Hdr) (d a b : Operand) (s : State) : Out :=
  issue s h fun c => counted s c .ld <|
    let va := (c.w.read64 a 0).toNat
    guardTraps s c [c.regCheck [(d, 4)] [(a, 2), (b, 1)]] <|
      if !c.anyActive then .next (s.retire c c.w (some a) (some b))
      else texQuery s c va (fun t l => t.sizeWords (c.w.read b l)) fun s1 f =>
        let n := c.texLater (.texqSize h d a b) d va (fun l => [c.w.read b l]) f
        .next (s1.retire c (c.w.count c.act n) (some a) (some b))

end Sys2Proof.Machine
end

