-- ==== Sys2Proof/Machine/Raster.lean ====
section
/-! DEFINITION. RASTER launches (R338, R362-R371): VEMIT and primitive assembly, view replication, rasterisation by the sixteen
rasterisers, and the raster-done arrival. -/
namespace Sys2Proof.Machine

/-! ## VEMIT (R338, R365) -/

/-- A vertex enters a triple: another draw ID discards what was gathered, and a third vertex completes a triangle. -/
def Wave.addVertex (w : Wave) (wi : Nat) (v : Vertex) : Wave × Option Triangle :=
  let old := w.triple.filter fun u => u.draw == v.draw
  let all := old ++ [v]
  if all.length = 3 then
    ({ w with triple := [] }, some { wave := wi, draw := v.draw, prim := (all.getD 0 v).idx, verts := all.map Vertex.pos })
  else ({ w with triple := all }, none)

/-- Vertices enter in order; the triangles they complete. -/
def Wave.addVertices (wi : Nat) : Wave → List Vertex → Wave × List Triangle
  | w, [] => (w, [])
  | w, v :: t =>
    let r := w.addVertex wi v
    let rest := Wave.addVertices wi r.1 t
    (rest.1, r.2.toList ++ rest.2)

/-- VEMIT: a vertex from each active lane, in ascending order. -/
def execVemit (h : Hdr) (a b draw : Operand) (s : State) : Out :=
  issue s h fun c =>
    guardTraps s c
      [c.regCheck [] [(a, 4), (b, 1), (draw, 1)],
       c.whenActive (if recKind c.g.record != 1 || c.w.emitted then some (Cause.rasterContext, c.act, 0) else none)]
      (let d := (c.w.read draw 0).toNat % 2 ^ 24
       let vs := (lanesOf c.act).map fun l => (⟨d, c.w.read b l, (List.range 4).map fun j => c.w.readAt a l j⟩ : Vertex)
       let r := c.w.addVertices c.wi vs
       .next ((s.retire c r.1 (some a) (some b)).updGrid c.b.grid fun g => { g with triangles := g.triangles ++ r.2 }))

/-! ## The raster descriptor (R362, R363) -/

namespace Grid
def ras (g : Grid) (i : Nat) : DWord := g.raster.getD i 0
/-- The views of the mask, ascending. -/
def views (g : Grid) : List Nat :=
  (List.range 128).filter fun v => if v < 64 then (g.ras 0).getLsbD v else (g.ras 1).getLsbD (v - 64)
def matVa (g : Grid) (v : Nat) : Nat := bits (g.ras 2) 55 0 + 64 * v
def rasW (g : Grid) : Nat := bits (g.ras 8) 63 48 + 1
def rasH (g : Grid) : Nat := bits (g.ras 8) 47 32 + 1
def samp (g : Grid) : Nat := 2 ^ bits (g.ras 8) 31 30
def cull (g : Grid) : Nat := bits (g.ras 8) 29 28
def cw (g : Grid) : Bool := (g.ras 8).getLsbD 27
def dtest (g : Grid) : Nat := bits (g.ras 8) 26 25
def dwrite (g : Grid) : Bool := (g.ras 8).getLsbD 24
def rasClear (g : Grid) : Bool := (g.ras 8).getLsbD 23
def clearCol (g : Grid) : Nat := bits (g.ras 7) 31 0
def clearDep (g : Grid) : Nat := bits (g.ras 9) 63 32
/-- The locations of a sample of a view, and of a pixel's colour (R363). -/
def visVa (g : Grid) (v x y k : Nat) : Nat :=
  bits (g.ras 3) 55 0 + v * bits (g.ras 6) 63 32 + 8 * (g.samp * (y * g.rasW + x) + k)
def depVa (g : Grid) (v x y k : Nat) : Nat :=
  bits (g.ras 4) 55 0 + v * bits (g.ras 6) 31 0 + 4 * (g.samp * (y * g.rasW + x) + k)
def colVa (g : Grid) (v x y : Nat) : Nat := bits (g.ras 5) 55 0 + v * bits (g.ras 7) 63 32 + 4 * (y * g.rasW + x)
def space (g : Grid) : Space := ⟨g.vm, g.asid, false, false⟩
end Grid

/-- The rasteriser that a pixel's tile of a view belongs to (R368). -/
def rasteriserOf (v x y : Nat) : Nat := (x / 8 + 5 * (y / 8) + 7 * v) % 16
/-- The C-die of a rasteriser. -/
def rasDie (q : Nat) : Nat := q / 2

/-- The sample offsets of R367 in 1/16 pixel. -/
def sampleOffsets : Nat → List (Nat × Nat)
  | 1 => [(8, 8)]
  | 2 => [(4, 4), (12, 12)]
  | 4 => [(6, 2), (14, 6), (2, 10), (10, 14)]
  | _ => [(9, 5), (7, 11), (13, 9), (5, 3), (3, 13), (1, 7), (11, 15), (15, 1)]

/-! ## Accesses of a rasteriser (R369) -/

/-- How a part of a rasteriser's work ends. -/
inductive Ras (α : Type) where
  | ok (s : State) (x : α)
  | fault (va : Nat) (acc : Access) (kind ptepa : Nat) (sys : Bool)
  | pri (s : State)
  deriving DecidableEq, Repr

def Ras.bind {α β : Type} (x : Ras α) (f : State → α → Ras β) : Ras β :=
  match x with
  | .ok s a => f s a
  | .fault va acc kind ptepa sys => .fault va acc kind ptepa sys
  | .pri s => .pri s

/-- The location of a naturally aligned word, by the translations of the rasteriser's die; an address that R10 does not admit
does not translate. -/
def State.rasPlace (s : State) (g : Grid) (q : Nat) (acc : Access) (va : Nat) : Ras Nat :=
  if !s.vaOk va then .fault va acc Kind.notPresent 0 false
  else match s.place (66 + rasDie q) (recClass g.record) g.space acc va with
    | .ok s' l => .ok s' l.key
    | .fault kind ptepa sys => .fault va acc kind ptepa sys
    | .pri s' => .pri s'

/-- Some bytes read from a location, the lowest first, with poison. -/
def State.rasRead (s : State) (k n : Nat) : Nat × Bool := (leNat (s.bytesAt (span k n)), (span k n).any s.secPoison)

/-- Write `n` bytes of a number; a value formed from poison is written poisoned.  The rule of R92 does not apply. -/
def State.rasWrite (s : State) (g : Grid) (q : Nat) (va n v : Nat) (bad : Bool) : Ras Unit :=
  (s.rasPlace g q .engWrite va).bind fun s k =>
    let s := s.homeStore (recClass g.record) (writesFrom k (leBytes n v))
    .ok (if bad then s.setSecPoison k true else s) ()

/-- Do something for each item in order. -/
def eachRas {α : Type} (f : State → α → Ras Unit) : State → List α → Ras Unit
  | s, [] => .ok s ()
  | s, x :: t => (f s x).bind fun s _ => eachRas f s t

/-- A view's matrix (R362), with poison. -/
def State.viewMatrix (s : State) (g : Grid) (q v : Nat) : Ras (List Word × Bool) :=
  (s.rasPlace g q .engRead (g.matVa v)).bind fun s k =>
    let ws := (List.range 16).map fun i => s.rasRead (k + 4 * i) 4
    .ok s (ws.map fun x => .ofNat 32 x.1, ws.any Prod.snd)

/-! ## View replication (R366) -/

/-- A clip coordinate vector: x, y, z, w. -/
abbrev Clip := List Word

def clipOf (m p : List Word) : Clip :=
  (List.range 4).map fun r =>
    let e := fun i => m.getD (4 * r + i) 0
    ffma32 (e 0) (p.getD 0 0) (ffma32 (e 1) (p.getD 1 0) (ffma32 (e 2) (p.getD 2 0) (fmul32 (e 3) (p.getD 3 0))))

/-- Whether a vertex is on the inner side of the near plane (0 ≤ z) or the far plane (z ≤ w). -/
def clipIn (far : Bool) (c : Clip) : Bool := if far then fle32 (c.getD 2 0) (c.getD 3 0) else fle32 0 (c.getD 2 0)

def half32 : Word := 0x3F000000
def one32 : Word := 0x3F800000

/-- The value a fraction `t` of the way from `a` to `b` in FP32, in one of four orders of its operations. -/
def lerp32 (form : Nat) (t a b : Word) : Word :=
  match form % 4 with
  | 0 => ffma32 t (fsub32 b a) a
  | 1 => fadd32 a (fmul32 t (fsub32 b a))
  | 2 => fadd32 (fmul32 (fsub32 one32 t) a) (fmul32 t b)
  | _ => ffma32 t b (fmul32 (fsub32 one32 t) a)

/-- How far inside a plane a vertex lies: z, or w - z. -/
def clipDist (far : Bool) (c : Clip) : Word := if far then fsub32 (c.getD 3 0) (c.getD 2 0) else c.getD 2 0

/-- The new vertex of an edge that crosses a plane: it lies on the plane, and x, y and w are interpolated in FP32 between the edge's ends, in
an order of operations and a direction that are free (DESIGN CHOICE, log entry 17). -/
def clipNew (far : Bool) (a b : Clip) : Clip :=
  let swap := Config.clipForm % 8 / 4 == 1
  let p := if swap then b else a
  let q := if swap then a else b
  let t := fdiv32 (clipDist far p) (fsub32 (clipDist far p) (clipDist far q))
  let f := fun i => lerp32 Config.clipForm t (p.getD i 0) (q.getD i 0)
  [f 0, f 1, if far then f 3 else 0, f 3]

/-- A polygon clipped against one plane. -/
def clipPoly (far : Bool) (ps : List Clip) : List Clip :=
  (List.range ps.length).flatMap fun i =>
    let a := ps.getD i []
    let b := ps.getD ((i + 1) % ps.length) []
    (if clipIn far a then [a] else []) ++ (if clipIn far a != clipIn far b then [clipNew far a b] else [])

/-- A vertex on the screen: snapped coordinates in 1/256 pixel, and its depth. -/
structure ScrVert where
  x : Int
  y : Int
  d : Word
  deriving DecidableEq, Repr

/-- Snap to 1/256 pixel; none for a coordinate that is not finite. -/
def snap (v : Word) : Option Int :=
  match fp32.dec v.toNat with
  | .fin neg m e => some (roundInt .rne neg m (e + 8))
  | _ => none

/-- A vertex mapped to the screen. -/
def toScreen (g : Grid) (c : Clip) : Option ScrVert :=
  let w := c.getD 3 0
  let x := fmul32 (fmul32 (fadd32 (fdiv32 (c.getD 0 0) w) one32) half32) (fnat32 g.rasW)
  let y := fmul32 (fmul32 (fsub32 one32 (fdiv32 (c.getD 1 0) w)) half32) (fnat32 g.rasH)
  match snap x, snap y with
  | some x, some y => some ⟨x, y, fdiv32 (c.getD 2 0) w⟩
  | _, _ => none

/-- Twice the signed area; positive when the vertices run clockwise on the screen, where y points down. -/
def edge (a b p : Int × Int) : Int := (b.1 - a.1) * (p.2 - a.2) - (b.2 - a.2) * (p.1 - a.1)

/-- A triangle on the screen, its vertices in clockwise order, and whether it faces back. -/
structure ScrTri where
  vs : List ScrVert
  back : Bool
  deriving DecidableEq, Repr

/-- Step 3 of R366: discard a triangle of no area, decide its facing, and cull. -/
def faceTri (g : Grid) (a b c : ScrVert) : Option ScrTri :=
  let area := edge (a.x, a.y) (b.x, b.y) (c.x, c.y)
  if area = 0 then none
  else
    let back := decide (0 < area) != g.cw
    if (g.cull = 1 && back) || (g.cull = 2 && !back) then none
    else some ⟨if 0 < area then [a, b, c] else [a, c, b], back⟩

/-- The screen triangles of a triangle in one view. -/
def viewTris (g : Grid) (m : List Word) (verts : List (List Word)) : List ScrTri :=
  let poly := clipPoly true (clipPoly false (verts.map (clipOf m)))
  let vs := poly.map (toScreen g)
  (List.range (vs.length - 2)).filterMap fun i =>
    match vs.getD 0 none, vs.getD (i + 1) none, vs.getD (i + 2) none with
    | some a, some b, some c => faceTri g a b c
    | _, _, _ => none

/-! ## Coverage and depth (R367) -/

/-- A point is covered by the side from `a` to `b` of a clockwise triangle: inside it, or on it where it is a top or a left
edge. -/
def covers (a b : ScrVert) (p : Int × Int) : Bool :=
  let e := edge (a.x, a.y) (b.x, b.y) p
  let topLeft := decide (b.y < a.y) || (a.y == b.y && decide (a.x < b.x))
  decide (0 < e) || (e == 0 && topLeft)

def ScrTri.covers (t : ScrTri) (p : Int × Int) : Bool :=
  (List.range 3).all fun i =>
    match t.vs[i]?, t.vs[(i + 1) % 3]? with
    | some a, some b => Machine.covers a b p
    | _, _ => false

/-- The position of sample `k` of a pixel in 1/256 pixel. -/
def samplePos (n x y k : Nat) : Int × Int :=
  let o := (sampleOffsets n).getD k (8, 8)
  (256 * x + 16 * o.1, 256 * y + 16 * o.2)

/-- The depth of the plane through the three snapped vertices at a point, in FP32 in one of four orders of its operations: by the point's
barycentric weights, fused, stepwise or as a weighted sum, or by the plane's slopes (DESIGN CHOICE, log entry 13). -/
def planeDepth (form : Nat) (a b c : ScrVert) (p : Int × Int) : Word :=
  let area := edge (a.x, a.y) (b.x, b.y) (c.x, c.y)
  let weight := fun (u v : ScrVert) => fdiv32 (fint32 (edge (u.x, u.y) (v.x, v.y) p) 0) (fint32 area 0)
  let wa := weight b c
  let wb := weight c a
  let wc := weight a b
  let db := fsub32 b.d a.d
  let dc := fsub32 c.d a.d
  match form % 4 with
  | 0 => ffma32 wc dc (ffma32 wb db a.d)
  | 1 => fadd32 (fadd32 a.d (fmul32 wb db)) (fmul32 wc dc)
  | 2 => fadd32 (fadd32 (fmul32 wa a.d) (fmul32 wb b.d)) (fmul32 wc c.d)
  | _ =>
    let i := fun (n : Int) => fint32 n (-8)
    let area32 := fint32 area (-16)
    let sx := fdiv32 (fsub32 (fmul32 db (i (c.y - a.y))) (fmul32 dc (i (b.y - a.y)))) area32
    let sy := fdiv32 (fsub32 (fmul32 dc (i (b.x - a.x))) (fmul32 db (i (c.x - a.x)))) area32
    fadd32 (fadd32 a.d (fmul32 sx (i (p.1 - a.x)))) (fmul32 sy (i (p.2 - a.y)))

/-- The depth of a screen triangle at a point. -/
def ScrTri.depthAt (t : ScrTri) (p : Int × Int) : Word :=
  match t.vs with
  | [a, b, c] => planeDepth Config.depthForm a b c p
  | _ => 0

/-- The pixels of a rasteriser that a triangle may touch. -/
def ScrTri.pixels (t : ScrTri) (g : Grid) (q v : Nat) : List (Nat × Nat) :=
  let lo := fun (f : ScrVert → Int) => (((t.vs.map f).foldl min ((t.vs.map f).headD 0)) / 256).toNat
  let hi := fun (f : ScrVert → Int) => (((t.vs.map f).foldl max 0) / 256 + 1).toNat
  let x0 := lo ScrVert.x
  let y0 := lo ScrVert.y
  let xs := span x0 (min g.rasW (hi ScrVert.x) - x0)
  let ys := span y0 (min g.rasH (hi ScrVert.y) - y0)
  ys.flatMap fun y => (xs.filter fun x => rasteriserOf v x y == q).map fun x => (x, y)

/-! ## The indivisible step of a sample (R364, R368) -/

/-- The visibility word. -/
def visWord (draw : Nat) (prim : Word) (back border : Bool) : Nat :=
  draw * 2 ^ 40 + prim.toNat * 2 ^ 8 + 2 ^ 7 + back.toNat * 2 ^ 6 + border.toNat * 2 ^ 5

/-- The depth test against a stored depth. -/
def depthPass (dtest : Nat) (d old : Word) : Bool :=
  match dtest with
  | 0 => true
  | 1 => flt32 d old
  | _ => fle32 d old

/-- One covered sample: a sample whose stored depth is poisoned is left as it is (R70). -/
def State.rasSample (s : State) (g : Grid) (q v x y k : Nat) (word : Nat) (d : Word) (bad : Bool) : Ras Unit :=
  let old : Ras (Nat × Bool) :=
    if g.dtest = 0 then .ok s (0, false)
    else (s.rasPlace g q .engRead (g.depVa v x y k)).bind fun s key => .ok s (s.rasRead key 4)
  old.bind fun s od =>
    if od.2 || !depthPass g.dtest d (.ofNat 32 od.1) then .ok s ()
    else (s.rasWrite g q (g.visVa v x y k) 8 word bad).bind fun s _ =>
      if g.dwrite then s.rasWrite g q (g.depVa v x y k) 4 d.toNat bad else .ok s ()

/-- One pixel of a screen triangle. -/
def State.rasPixel (s : State) (g : Grid) (q v : Nat) (t : Triangle) (tri : ScrTri) (bad : Bool) (xy : Nat × Nat) : Ras Unit :=
  let n := g.samp
  let hit := (List.range n).filter fun k => tri.covers (samplePos n xy.1 xy.2 k)
  let word := visWord t.draw t.prim tri.back (decide (hit.length < n))
  eachRas (fun s k => s.rasSample g q v xy.1 xy.2 k word (tri.depthAt (samplePos n xy.1 xy.2 k)) bad) s hit

/-- A triangle in one view, on one rasteriser's tiles. -/
def State.rasView (s : State) (g : Grid) (q : Nat) (t : Triangle) (v : Nat) : Ras Unit :=
  (s.viewMatrix g q v).bind fun s m =>
    eachRas (fun s tri => eachRas (fun s xy => s.rasPixel g q v t tri m.2 xy) s (tri.pixels g q v)) s (viewTris g m.1 t.verts)

/-- A triangle on one rasteriser's tiles, view by view. -/
def State.rasTriangle (s : State) (g : Grid) (q : Nat) (t : Triangle) : Ras Unit :=
  eachRas (fun s v => s.rasView g q t v) s g.views

/-- The clear of one rasteriser's tiles (R363). -/
def State.rasClearAll (s : State) (g : Grid) (q : Nat) : Ras Unit :=
  eachRas (fun s v =>
    eachRas (fun s (xy : Nat × Nat) =>
      (eachRas (fun s k =>
        (s.rasWrite g q (g.visVa v xy.1 xy.2 k) 8 0 false).bind fun s _ =>
          s.rasWrite g q (g.depVa v xy.1 xy.2 k) 4 g.clearDep false) s (List.range g.samp)).bind fun s _ =>
        s.rasWrite g q (g.colVa v xy.1 xy.2) 4 g.clearCol false) s
      ((List.range g.rasH).flatMap fun y =>
        ((List.range g.rasW).filter fun x => rasteriserOf v x y == q).map fun x => (x, y))) s g.views

/-! ## The events (R368-R370) -/

/-- A rasteriser stops at a failed translation until the answer (R369); its record joins no core's. -/
def State.rasStop (s : State) (gi q va : Nat) (acc : Access) (kind ptepa : Nat) (sys : Bool) : State :=
  let r := s.raiseFault (160 + q) (s.grid gi).space va acc kind ptepa sys 0 0 0
  r.1.updGrid gi fun g => { g with rasterFault := (q, r.2) :: g.rasterFault }

/-- Take how a rasteriser's work ended: all of it performed, or nothing but the record it waits on. -/
def State.rasSettle (s : State) (gi q : Nat) (x : Ras Unit) (done : State → Out) : Out :=
  match x with
  | .ok s' _ => done s'
  | .fault va acc kind ptepa sys => .next (s.rasStop gi q va acc kind ptepa sys)
  | .pri s' => waitPri s s'
where
  /-- Only a new page request is kept (R38). -/
  waitPri (s s' : State) : Out :=
    if s'.x.pri = s.x.pri then .fault .eventCannotOccur else .next { s with x := { s.x with pri := s'.x.pri } }

/-- A grid whose rasterisers work, also on what is emitted after the raster-done arrival. -/
def Grid.rasters (g : Grid) : Bool := g.life == .active && !g.killed && recKind g.record == 1

/-- TRIANGLE_RASTERISE: a rasteriser takes the oldest triangle of a wave that it has not taken; before its first one it clears
its tiles where CLEAR asks for it (R363). -/
def execTriangleRasterise (grid wave : Nat) (q : BitVec 4) (s : State) : Out :=
  let g := s.grid grid
  if !g.rasters || g.rasterFault.any (fun f => f.1 == q.toNat) then .fault .eventCannotOccur
  else match g.triangles.find? fun t => t.wave == wave && t.left.getLsbD q.toNat with
    | none => .fault .eventCannotOccur
    | some t =>
      heldToSlot s (recClass g.record) <| if g.rasClear && !g.cleared.getLsbD q.toNat then
        s.rasSettle grid q.toNat (s.rasClearAll g q.toNat) fun s =>
          .next (s.updGrid grid fun g => { g with cleared := g.cleared ||| (1#16 <<< q.toNat) })
      else
        s.rasSettle grid q.toNat (s.rasTriangle g q.toNat t) fun s =>
          .next (s.updGrid grid fun g =>
            let i := g.triangles.findIdx fun u => u.wave == wave && u.left.getLsbD q.toNat
            { g with triangles := (g.triangles.set i { t with left := t.left &&& ~~~ (1#16 <<< q.toNat) }).filter fun u => u.left != 0 })

/-- The waves of a grid, sailed ones among them. -/
def State.gridWaves (s : State) (gi : Nat) : List Nat :=
  (List.range s.waves.length).filter fun wi => (s.block (s.wave wi).block).grid == gi

/-- Berths of a grid, open or sailed. -/
def State.gridBerths (s : State) (gi : Nat) : Nat :=
  s.cores.foldl (fun n kc => n + kc.2.berths.countP fun b => b.2.grid == gi) 0

/-- Every wave of a grid has ended its emission (R370). -/
def State.emissionOver (s : State) (gi : Nat) : Bool :=
  let g := s.grid gi
  g.placed == recBlocks g.record && s.gridBerths gi == 0
    && (s.gridWaves gi).all fun wi => (s.wave wi).life == .ended || (s.wave wi).emitted

/-- RASTER_DONE: with every triangle rasterised and the clears performed, one arrival on each raster barrier. -/
def execRasterDone (grid : Nat) (s : State) : Out :=
  let g := s.grid grid
  if !g.rasters || g.rasterDone || g.rasterFault != [] || g.triangles != [] || !s.emissionOver grid then .fault .eventCannotOccur
  else
    match if g.rasClear then (List.range 16).find? fun q => !g.cleared.getLsbD q else none with
    | some q =>
      s.rasSettle grid q (s.rasClearAll g q) fun s =>
        .next (s.updGrid grid fun g => { g with cleared := g.cleared ||| (1#16 <<< q) })
    | none =>
      .next (s.updGrid grid fun g =>
        { g with rasterDone := true, gb := g.gb.map fun b => if b.raster && b.expect != 0 then b.arrive else b })

end Sys2Proof.Machine
end

