-- ==== Sys2Proof/Machine/Osc.lean ====
section
/-! DEFINITION. The Landing instructions (R325-R330) and the object table (R75-R77). -/
namespace Sys2Proof.Machine

/-! ## The object table (R75, R76, R89) -/

/-- COUNT, ASID and BASE of a VM's object table. -/
def State.objCount (s : State) (vm : Nat) : Nat := bits (Sparse.get 0 s.lreg.objctl vm) 24 0
def State.objSpace (s : State) (vm : Nat) : Space :=
  ⟨vm, .ofNat 16 (bits (Sparse.get 0 s.lreg.objctl vm) 63 48), false, false⟩
def State.objVa (s : State) (vm obj : Nat) : Nat := bits (Sparse.get 0 s.lreg.objbase vm) 55 6 * 64 + 64 * obj

/-- The first four words of an object entry, from a copy in the die's object cache or from the entry itself, which is then
copied (R76, DESIGN CHOICE, log entry 14), an access of the class of the block that asks (R40). -/
def State.objRead (s : State) (cls die k : Nat) : State × List DWord :=
  let now := (List.range 4).map fun i => s.word64 (k + 8 * i)
  match s.land.objs.find? fun o => o.die == die && o.loc == k with
  | some o =>
    if Config.readsCached s.choice k then (s, o.words)
    else ({ s.l2TouchAll (span k 32) cls false with land := { s.land with
        objs := ⟨die, k, now⟩ :: s.land.objs.filter fun o => !(o.die == die && o.loc == k) } }, now)
  | none => ({ s.l2TouchAll (span k 32) cls false with land := { s.land with objs := ⟨die, k, now⟩ :: s.land.objs } }, now)

/-- The entry exists: V = 1 and no reserved bit set (R75). -/
def objExists (ws : List DWord) : Bool :=
  (ws.getD 0 0).getLsbD 63 && bits (ws.getD 0 0) 62 56 == 0 && bits (ws.getD 1 0) 62 56 == 0
    && bits (ws.getD 2 0) 55 48 == 0 && bits (ws.getD 3 0) 63 56 == 0

/-- The object entries of some lanes, read in order from their locations. -/
def State.objReadAll (s : State) (cls : Nat) : List (Nat × Nat × Nat) → State × List (Nat × List DWord)
  | [] => (s, [])
  | (l, obj, k) :: t =>
    let r := s.objRead cls (dieOfObj obj) k
    let rest := r.1.objReadAll cls t
    (rest.1, (l, r.2) :: rest.2)

/-- The two stages of LANDING_OBJECT (R75): COUNT for every lane, then the entries, read as engine accesses; the rest of the
instruction receives the entries.  An entry whose address lies in the device window, where no table can be read, does not exist (DESIGN
CHOICE, log entry 53). -/
def withObjects (s : State) (c : Ctx) (objs : List (Nat × Nat)) (acc : Access)
    (k : State → List (Nat × List DWord) → (Nat → Nat) → Out) : Out :=
  let vm := c.g.vm
  let sp := s.objSpace vm
  let u := stallUnit c.b.core acc
  let vas := objs.map fun x => (x.1, s.objVa vm x.2)
  let mask := fun (xs : List (Nat × Nat)) => maskOfList (xs.map Prod.fst)
  let far := objs.filter fun x => decide (s.objCount vm ≤ x.2)
  let off := vas.filter fun x => decide (landingVa ≤ x.2)
  if far != [] then trap s c Cause.landingObject (mask far)
  else if off != [] then trap s c Cause.landingObject (mask off)
  else guardTraps s c [c.cancelCheck vas 64]
    (match s.misses u sp acc (vas.map Prod.snd) with
     | va :: more => .next (s.stallOn c sp acc (va :: more))
     | [] =>
       let keyOf := fun va => ((s.lookup u sp acc va).map Loc.key).getD 0
       let r := s.objReadAll c.b.cls.val (objs.map fun x => (x.1, x.2, keyOf (s.objVa vm x.2)))
       let absent := r.2.filter fun x => !objExists x.2
       if absent != [] then trap s c Cause.landingObject (maskOfList (absent.map Prod.fst))
       else k r.1 r.2 keyOf)

/-! ## Serving lanes in order (R85) -/

/-- Serve lanes in ascending order; a lane that waits for a host page makes the whole instruction wait. -/
def serveLanes (f : State → Nat → LandOut) : State → List Nat → Option (State × List (Nat × LandRes)) × State
  | s, [] => (some (s, []), s)
  | s, l :: t =>
    match f s l with
    | .wait s' => (none, s')
    | .served s' r =>
      match serveLanes f s' t with
      | (some (s'', rs), s3) => (some (s'', (l, r) :: rs), s3)
      | (none, s3) => (none, s3)

/-- An instruction that waits for an answer to a page request: nothing of it is performed but the request (R38). -/
def State.waitsPri (s s' : State) : State :=
  if s'.x.pri = s.x.pri then s.notReady else { s with x := { s.x with pri := s'.x.pri } }

/-- A key operand (R325). -/
def Ctx.keyAt (c : Ctx) (a : Operand) (l : Nat) : Nat := (c.w.read64 a l).toNat % 2 ^ 56

/-- The result of a lane. -/
def resAt (rs : List (Nat × LandRes)) (l : Nat) : LandRes := ((rs.find? fun x => x.1 == l).map Prod.snd).getD { code := Code.lost }

/-- A served payload is acquired at device scope (R88). -/
def State.acquireHits (s : State) (core : Nat) (rs : List (Nat × LandRes)) : State :=
  if rs.any fun x => x.2.code == Code.hit || x.2.code == Code.hitStale then s.l1Acquire core else s

/-- The object numbers of the active lanes' keys. -/
def Ctx.keyObjs (c : Ctx) (a : Operand) : List (Nat × Nat) := (lanesOf c.act).map fun l => (l, keyObj (c.keyAt a l))

/-- The request of a lane. -/
def Ctx.landReq (s : State) (c : Ctx) (a : Operand) (es : List (Nat × List DWord)) (l : Nat) : LandReq :=
  ⟨c.g.vm, c.keyAt a l, ((es.find? fun e => e.1 == l).map Prod.snd).getD [], s.waveWatcher c.wi⟩

/-- OSCLOOK (R326). -/
def execOsclook (h : Hdr) (staleok : Bool) (d a : Operand) (s : State) : Out :=
  issue s h fun c => counted s c .ld <|
    guardTraps s c [c.regCheck [(d, 4)] [(a, 2)]] <|
      if !c.anyActive then .next (s.retire c c.w (some a) none)
      else withObjects s c (c.keyObjs a) .engRead fun s1 es _ =>
        match serveLanes (fun s l => s.landLookup (c.landReq s a es l) staleok) s1 (lanesOf c.act) with
        | (none, s') => .next (s.waitsPri s')
        | (some (s2, rs), _) =>
          let ws := c.w.pending c.act d fun l => ((resAt rs l).group, false)
          .next ((s2.acquireHits c.b.core rs).retire c ((s2.wave c.wi).count c.act (c.later .ld ws)) (some a) none)

/-- OSCPROV (R330). -/
def execOscprov (h : Hdr) (d a : Operand) (s : State) : Out :=
  issue s h fun c => counted s c .ld <|
    guardTraps s c [c.regCheck [(d, 1)] [(a, 2)]] <|
      if !c.anyActive then .next (s.retire c c.w (some a) none)
      else withObjects s c (c.keyObjs a) .engRead fun s1 es _ =>
        match serveLanes (fun s l => s.landProv (c.landReq s a es l)) s1 (lanesOf c.act) with
        | (none, s') => .next (s.waitsPri s')
        | (some (s2, rs), _) =>
          let ws := c.w.pending c.act d fun l => ([(resAt rs l).word], false)
          .next (s2.retire c ((s2.wave c.wi).count c.act (c.later .ld ws)) (some a) none)

/-! ## OSCWAIT (R327) -/

/-- Serve the lanes of an OSCWAIT: results at once, or parked lanes with the entry each waits on. -/
def waitLanes (vm : Nat) (hOf : Nat → Word) (keysOf : Nat → List Nat) (t : Nat) (who : Word) :
    State → List Nat → State × List PendWrite × List Parked × Bool
  | s, [] => (s, [], [], false)
  | s, l :: ls =>
    let h := hOf l
    let keys := keysOf l
    match s.landWait vm h who with
    | .result s' r =>
      let x := waitLanes vm hOf keysOf t who s' ls
      (x.1, groupWrites l keys r.group ++ x.2.1, x.2.2.1, x.2.2.2 || r.code == Code.hit)
    | .park s' i =>
      if t = 0 then
        let x := waitLanes vm hOf keysOf t who (s.expireSet (handleIx h / 16 * 16)) ls
        (x.1, groupWrites l keys { code := Code.timeout, handle := h : LandRes }.group ++ x.2.1, x.2.2.1, x.2.2.2)
      else
        let x := waitLanes vm hOf keysOf t who s' ls
        (x.1, x.2.1, ⟨l, h, i, keys, s.clk + t⟩ :: x.2.2.1, x.2.2.2)

/-- OSCWAIT. -/
def execOscwait (h : Hdr) (d a b : Operand) (s : State) : Out :=
  issue s h fun c => counted s c .ld <|
    guardTraps s c [c.regCheck [(d, 4)] [(a, 1), (b, 1)]] <|
      if !c.anyActive then .next (s.retire c c.w (some a) (some b))
      else
        let t := (c.w.read b 0).toNat
        let x := waitLanes c.g.vm (c.w.read a) (fun l => c.w.dstKeys d l 4) t (s.waveWatcher c.wi) s (lanesOf c.act)
        let s1 := if x.2.2.2 then x.1.l1Acquire c.b.core else x.1
        let n : Counted := { c.later .ld x.2.1 with
          parked := x.2.2.1
          again := some (.oscwait h d a b)
          vals := (lanesOf c.act).map fun l => (l, [(c.w.read a l).setWidth 64, BitVec.ofNat 64 t])
          keys := c.destOf d 4 }
        .next (s1.retire c ((s1.wave c.wi).count c.act n) (some a) (some b))

/-- OSCWAIT_TIMEOUT (R86 row 21): parked lanes whose time has come receive TIMEOUT, and the wave leaves WATCH once none of
its lanes is parked on the entry. -/
def execOscwaitTimeout (wave idx : Nat) (lanes : LaneMask) (s : State) : Out :=
  let w := s.wave wave
  match w.counted.find? fun e => e.1 == idx with
  | none => .fault .eventCannotOccur
  | some (_, n) =>
    let out := n.parked.filter fun p => lanes.getLsbD p.lane
    if out = [] || maskOfList (out.map Parked.lane) != lanes || out.any (fun p => decide (s.clk < p.timeout)) then
      .fault .eventCannotOccur
    else
      let ws := out.flatMap fun p => groupWrites p.lane p.dst { code := Code.timeout, handle := p.handle : LandRes }.group
      let n' := { n with parked := n.parked.filter (fun p => !lanes.getLsbD p.lane), writes := n.writes ++ ws }
      let w' := { w with counted := w.counted.map fun e => if e.1 == idx then (idx, n') else e }
      let who := s.waveWatcher wave
      let gone := ((out.map Parked.entry).eraseDups).filter fun i => !w'.counted.any fun e => e.2.parked.any fun p => p.entry == i
      .next (gone.foldl (fun s i => s.setTag i { s.tagAt i with watch := dropWatch (s.tagAt i).watch who }) (s.setWave wave w'))

/-! ## OSCFILL (R328) -/

/-- Serve the fills of some lanes in order. -/
def fillLanes (vm : Nat) (hOf : Nat → Word) : State → List Nat → State × List (Nat × Bool)
  | s, [] => (s, [])
  | s, l :: t =>
    let r := s.landFill vm (hOf l)
    let rest := fillLanes vm hOf r.1 t
    (rest.1, (l, r.2) :: rest.2)

/-- A status that is 0 when something was done; a flag receives 1 then (R323, R324, R328). -/
def statusWord (d : Operand) (done : Bool) : Word :=
  match d with
  | .f _ => boolWord done
  | _ => boolWord (!done)

/-- OSCFILL. -/
def execOscfill (h : Hdr) (d a : Operand) (s : State) : Out :=
  issue s h fun c => counted s c .ld <|
    guardTraps s c [c.regCheck [(d, 1)] [(a, 1)]] <|
      if !c.anyActive then .next (s.retire c c.w (some a) none)
      else
        let s1 := s.release c.b.core c.b.cls.val .device
        let r := fillLanes c.g.vm (fun l => c.w.read a l) s1 (lanesOf c.act)
        let ws := c.w.pending c.act d fun l => ([statusWord d ((r.2.find? fun x => x.1 == l).any Prod.snd)], false)
        .next (r.1.retire c ((r.1.wave c.wi).count c.act (c.later .ld ws)) (some a) none)

/-! ## OSCINV and OSCTICK (R329) -/

/-- Advance an object's generation: an atomic at its home, every copy dropped, and a sweep at 0 and 128 (R77). -/
def State.bumpGen (s : State) (cls obj k : Nat) : State :=
  let s := s.l2TouchAll (span k 8) cls false
  let g := (s.byte (k + 6)).toNat
  let g' := (g + 1) % 256
  let s1 := if s.secPoison k then s else s.homeWrite cls [(k + 6, .ofNat 8 g')]
  let s2 := { s1 with land := { s1.land with objs := s1.land.objs.filter fun o => o.loc != k } }
  if !s.secPoison k && (g' == 0 || g' == 128) then s2.sweepGen obj g' else s2

/-- OSCINV: its entry is read as by any Landing instruction; then the atomic on it is translated as a write (R145), which an open store
window refuses, since it reaches no payload block (R95). -/
def execOscinv (h : Hdr) (a : Operand) (s : State) : Out :=
  issue s h fun c => counted s c .st <|
    guardTraps s c [c.regCheck [] [(a, 1)]] <|
      if !c.anyActive then .next (s.retire c c.w (some a) none)
      else
        let obj := (c.w.read a 0).toNat
        let objs := (lanesOf c.act).map fun l => (l, obj)
        withObjects s c objs .engRead fun s1 _ _ =>
          let sp := s.objSpace c.g.vm
          let va := s.objVa c.g.vm obj
          let u := stallUnit c.b.core .engWrite
          match s1.misses u sp .engWrite [va] with
          | va :: more => .next (s1.stallOn c sp .engWrite (va :: more))
          | [] =>
            guardTraps s1 c [c.specCheck (objs.map fun x => (x.1, va)) 8]
              (.next ((s1.bumpGen c.b.cls.val obj (((s1.lookup u sp .engWrite va).map Loc.key).getD 0)).retire c
                (c.w.count c.act (c.later .st [])) (some a) none))

/-- OSCTICK. -/
def execOsctick (h : Hdr) (s : State) : Out :=
  issue s h fun c => counted s c .st <|
    guardTraps s c [c.whenActive (if s.lreg.tickvm.getLsbD c.g.vm then none else some (Cause.landingTick, c.act, 0))] <|
      if !c.anyActive then .next (s.retire c c.w none none)
      else
        let s1 := { s with lreg := { s.lreg with frame := s.lreg.frame + 1 } }.drainQuarantine
        .next (s1.retire c (c.w.count c.act (c.later .st [])) none none)

end Sys2Proof.Machine
end

