-- ==== Sys2Proof/Machine/Tensor.lean ====
section
/-! DEFINITION. Tensor entries (R242-R246) and the arithmetic of groups 0xD and 0xE: sums (R241, R350), epilogues (R354),
spectral products (R355) and the butterfly schedule (R357). -/
namespace Sys2Proof.Machine

/-! ## Entries (R242) -/

/-- The fields of a tensor entry. -/
structure Tens where
  v : Bool
  space : Nat
  fmt : Nat
  freq : Bool
  base : Nat
  rows : Nat
  cols : Nat
  stride : Nat
  beta : Int
  sigma : Int
  blk : Nat
  tr : Nat
  tc : Nat
  sfix : Bool
  deriving DecidableEq, Repr

/-- Word `i` of an entry. -/
def tensWord (e : BitVec 256) (i : Nat) : DWord := e.extractLsb' (64 * i) 64
/-- An entry with word `i` replaced. -/
def setTensWord (e : BitVec 256) (i : Nat) (w : DWord) : BitVec 256 :=
  (e &&& ~~~ ((BitVec.ofNat 256 (2 ^ 64 - 1)) <<< (64 * i))) ||| (w.setWidth 256 <<< (64 * i))

/-- A signed byte. -/
def byteInt (n : Nat) : Int := elemVal true 8 (n % 256)

def tensOf (e : BitVec 256) : Tens :=
  let w0 := tensWord e 0
  let w1 := tensWord e 1
  let w2 := tensWord e 2
  { v := w0.getLsbD 63, space := bits w0 62 61, fmt := bits w0 60 57, freq := w0.getLsbD 56, base := bits w0 55 0
    rows := bits w1 63 44 + 1, cols := bits w1 43 24 + 1
    stride := bits w2 63 32, beta := byteInt (bits w2 31 24), sigma := byteInt (bits w2 23 16), blk := bits w2 15 13,
    tr := bits w2 12 9, tc := bits w2 8 5, sfix := w2.getLsbD 4 }

/-- Bytes of an element. -/
def fmtBytes (f : Nat) : Nat := [4, 2, 2, 1, 1, 1, 4, 8, 1, 1, 4].getD f 1
def Tens.elem (t : Tens) : Nat := fmtBytes t.fmt
/-- The circulant block size b. -/
def Tens.b (t : Tens) : Nat := 16 * 2 ^ t.blk
/-- log2 of a block size. -/
def Tens.logb (t : Tens) : Nat := 4 + t.blk
/-- Bytes from BASE to the last element. -/
def Tens.extent (t : Tens) : Nat := (t.rows - 1) * t.stride + t.cols * t.elem

/-- Whether an entry is valid (R243). -/
def tensValid (e : BitVec 256) : Bool :=
  let t := tensOf e
  let al := if t.space = 0 then 16 else 4
  decide (t.space ≤ 2) && decide (t.fmt ≤ 10) && decide (t.blk ≤ 4) && decide (t.tr ≤ 9) && decide (t.tc ≤ 9)
    && bits (tensWord e 1) 23 0 == 0 && bits (tensWord e 2) 3 0 == 0 && tensWord e 3 == 0
    && decide (t.cols * t.elem ≤ t.stride) && t.base % al == 0 && t.stride % al == 0
    && (if t.space = 2 then t.fmt == 0 || t.fmt == 7 || t.fmt == 10 else !(t.fmt == 10 && t.freq))
    && (!t.freq || ((if t.space = 2 then t.fmt == 7 else t.fmt == 6) && t.cols % (t.b / 2) == 0))

/-- Entry `n` of a block. -/
def Block.tens' (b : Block) (n : Nat) : BitVec 256 := Sparse.get 0 b.tens n
def Block.setTens (b : Block) (n : Nat) (e : BitVec 256) : Block := { b with tens := Sparse.set 0 b.tens n e }

/-- The number of a T operand. -/
def tNum : Operand → Nat
  | .t n => n.val
  | _ => 0

/-- The engine updates of R245 and R246. -/
def setSigma (e : BitVec 256) (sg : Int) : BitVec 256 := setTensWord e 2 (setBits (tensWord e 2) 23 16 (sg % 256).toNat)
def setBeta (e : BitVec 256) (bt : Int) : BitVec 256 := setTensWord e 2 (setBits (tensWord e 2) 31 24 (bt % 256).toNat)
def setSfix (e : BitVec 256) (f : Bool) : BitVec 256 := setTensWord e 2 (setBits (tensWord e 2) 4 4 f.toNat)
def setDom (e : BitVec 256) (f : Bool) : BitVec 256 := setTensWord e 0 (setBits (tensWord e 0) 56 56 f.toNat)

/-! ## Elements (R238, R245) -/

/-- The stored number of an element of a TIME format; D2P8 as its value d. -/
def elemNum (fmt v : Nat) : FNum :=
  match fmt with
  | 0 => fp32.dec (v % 2 ^ 32)
  | 1 => fp16.dec (v % 65536)
  | 2 => bf16.dec (v % 65536)
  | 3 => f8a.dec (v % 256)
  | 4 => f8b.dec (v % 256)
  | 5 => d2p8Num 0 v
  | 8 => numOf .i8 v
  | 9 => numOf .n8 v
  | _ => numOf .i32 v

/-- A number times a power of two. -/
def FNum.scale (x : FNum) (k : Int) : FNum :=
  match x with
  | .fin s m e => .fin s m (e + k)
  | y => y

/-- narrow of R354: y * 2^-beta in a format. -/
def narrowTo (fmt : Nat) (beta : Int) (y : FNum) : Nat :=
  let x := y.scale (-beta)
  match fmt with
  | 0 => fp32.enc x
  | 1 => fp16.enc x
  | 2 => bf16.enc x
  | 3 => f8a.enc x
  | 4 => f8b.enc x
  | 5 => d2p8Enc beta y
  | 8 => patOf .i8 x
  | 9 => patOf .n8 x
  | _ => patOf .i32 x

def round32 (x : FNum) : Word := .ofNat 32 (fp32.enc x)
def num32 (w : Word) : FNum := fp32.dec w.toNat

/-- The lesser or greater of two exact numbers, as R239 orders them. -/
def FNum.least (greater : Bool) (a b : FNum) : FNum :=
  match a, b with
  | .nan, y => y
  | x, .nan => x
  | x, y => if greater then (if x.below y then y else x) else if y.below x then y else x

/-- The activations of R354 on exact numbers. -/
def actNum (act : Act) (u : FNum) : FNum :=
  if u.isNan then .nan
  else match act with
    | .none => u
    | .relu => if (FNum.fin false 0 0).cmp u |>.1 then u else .fin false 0 0
    | .relu6 => FNum.least false (FNum.least true u (.fin false 0 0)) (.fin false 6 0)
    | .lrelu => if (u.cmp (.fin false 0 0)).1 then u.scale (-3) else u
    | .clamp1 => FNum.least false (FNum.least true u (.fin true 1 0)) (.fin false 1 0)

/-! ## Sums (R241, R350) -/

/-- An exact sum of some numbers. -/
def exactSum : List FNum → FNum
  | [] => .fin false 0 0
  | x :: t => t.foldl FNum.add x

/-- The FP32 value of an output from its products, taken in groups of 16: `fuel` bounds the groups. -/
def groupSums : Nat → Word → List FNum → Word
  | 0, acc, _ => acc
  | fuel + 1, acc, ps =>
    if ps = [] then acc else groupSums fuel (fadd32 acc (round32 (exactSum (ps.take 16)))) (ps.drop 16)

/-- One output of a matrix product: row elements, column elements, the scale of R350 and the accumulator's start. -/
def dotFloat (fa fb : Nat) (k : Int) (acc : Word) (as bs : List Nat) : Word :=
  let ps := (as.zip bs).map fun x => ((elemNum fa x.1).mul (elemNum fb x.2)).scale k
  groupSums (ps.length + 1) acc ps

/-- An element as an integer. -/
def elemInt (fmt v : Nat) : Int := if fmt = 8 then elemVal true 8 (v % 256) else if fmt = 9 then v % 256 else elemVal true 32 (v % 2 ^ 32)

/-- One output of an integer product. -/
def dotInt (fa fb : Nat) (acc : Word) (as bs : List Nat) : Word :=
  acc + .ofInt 32 ((as.zip bs).foldl (fun a x => a + elemInt fa x.1 * elemInt fb x.2) 0)

/-! ## Spectra (R241, R245, R355) -/

/-- A pair of FP32 words. -/
abbrev Cx := Word × Word

/-- The halves of a CB16 word, exact in FP32. -/
def cb16 (v : Nat) : Cx := (.ofNat 32 (v % 65536 * 65536), .ofNat 32 (v / 65536 % 65536 * 65536))
/-- Two FP32 words rounded to a CB16 word. -/
def toCb16 (c : Cx) : Nat := bf16.enc (num32 c.1) + 65536 * bf16.enc (num32 c.2)

/-- One step of a TMMS: slot 0 holds two real bins, the others a complex one. -/
def specStep (slot0 : Bool) (acc w x : Cx) : Cx :=
  let n := fun (v : Word) => num32 v
  if slot0 then (fadd32 acc.1 (round32 ((n w.1).mul (n x.1))), fadd32 acc.2 (round32 ((n w.2).mul (n x.2))))
  else
    (fadd32 acc.1 (round32 (((n w.1).mul (n x.1)).add ((n w.2).mul (n x.2)).neg)),
     fadd32 acc.2 (round32 (((n w.1).mul (n x.2)).add ((n w.2).mul (n x.1)))))

/-! ## Butterflies (R357) -/

/-- An exact complex number. -/
abbrev CNum := FNum × FNum

def CNum.add (a b : CNum) : CNum := (a.1.add b.1, a.2.add b.2)
def CNum.sub (a b : CNum) : CNum := (a.1.add b.1.neg, a.2.add b.2.neg)
def CNum.mul (a b : CNum) : CNum := ((a.1.mul b.1).add (a.2.mul b.2).neg, (a.1.mul b.2).add (a.2.mul b.1))
/-- e * i * a, for e = +1 or -1. -/
def CNum.turn (pos : Bool) (a : CNum) : CNum := if pos then (a.2.neg, a.1) else (a.2, a.1.neg)
def CNum.shift (k : Int) (a : CNum) : CNum := (a.1.scale k, a.2.scale k)
def CNum.round (a : CNum) : Cx := (round32 a.1, round32 a.2)
def Cx.num (a : Cx) : CNum := (num32 a.1, num32 a.2)

/-- cos and sin of 2 pi m / b, each rounded to FP32. -/
def twiddle (b m : Nat) : Cx :=
  let q := m % b / (b / 4)
  let r := m % (b / 4)
  let z : Int := ((2 * piFix * r / b / 2 ^ 240 : Nat) : Int)
  let c : Word := if r = 0 then 0x3F800000 else nearest32 (cosFix z) (-(fixBits : Int))
  let s : Word := if r = 0 then 0 else nearest32 (sinFix z) (-(fixBits : Int))
  let neg := fun (w : Word) => if w = 0 then w else fneg32 w
  if q = 0 then (c, s) else if q = 1 then (neg s, c) else if q = 2 then (neg c, neg s) else (s, neg c)

/-- Omega(m) = (C_m, eps * S_m). -/
def omega (b : Nat) (pos : Bool) (m : Nat) : CNum :=
  let t := Cx.num (twiddle b m)
  (t.1, if pos then t.2 else t.2.neg)

/-- The four outputs of a radix-4 butterfly. -/
def butterfly4 (b : Nat) (pos : Bool) (k : Int) (u : Nat) (x0 x1 x2 x3 : CNum) : List Cx :=
  let t0 := x0.add x2
  let t1 := x0.sub x2
  let t2 := x1.add x3
  let t3 := x1.sub x3
  let out := fun (v : CNum) (m : Nat) => CNum.round (((CNum.shift k v).mul (omega b pos m)))
  [CNum.round (CNum.shift k (t0.add t2)), out (t1.add (CNum.turn pos t3)) u, out (t0.sub t2) (2 * u),
   out (t1.sub (CNum.turn pos t3)) (3 * u)]

/-- The stages of the schedule on an array of `b`, for groups of `len`. -/
def stages (b : Nat) (pos : Bool) (scaled : Bool) : Nat → Nat → List Cx → List Cx
  | 0, _, a => a
  | fuel + 1, len, a =>
    let at' := fun i => Cx.num (a.getD i (0, 0))
    if 4 ≤ len then
      let q := len / 4
      let a' := (List.range b).map fun i =>
        let h := i / len * len
        let n := i % q
        let o := butterfly4 b pos (if scaled then -2 else 0) (n * (b / len)) (at' (h + n)) (at' (h + n + q)) (at' (h + n + 2 * q))
          (at' (h + n + 3 * q))
        o.getD (i % len / q) (0, 0)
      stages b pos scaled fuel (len / 4) a'
    else if len = 2 then
      (List.range b).map fun i =>
        let h := i / 2 * 2
        let k : Int := if scaled then -1 else 0
        CNum.round (CNum.shift k (if i % 2 = 0 then (at' h).add (at' (h + 1)) else (at' h).sub (at' (h + 1))))
    else a

/-- The bin that position `m` of an array of `b` holds after the last stage. -/
def binAt : Nat → Nat → Nat → Nat
  | 0, _, _ => 0
  | fuel + 1, b, m =>
    if b ≤ 1 then 0
    else
      let r := if 4 ≤ b then 4 else 2
      m / (b / r) + r * binAt fuel (b / r) (m % (b / r))

/-- The transform of an array of `b`, in bin order. -/
def transform (b : Nat) (pos scaled : Bool) (a : List Cx) : List Cx :=
  let out := stages b pos scaled 9 b a
  (List.range b).map fun k =>
    match (List.range b).find? fun m => binAt 9 b m == k with
    | some m => out.getD m (0, 0)
    | none => (0, 0)

/-- TFFT of a block of `b` FP32 values, packed into b/2 slots (R356). -/
def fftBlock (b : Nat) (s : List Word) : List Cx :=
  let x := transform b false true (s.map fun v => (v, (0 : Word)))
  (List.range (b / 2)).map fun k =>
    if k = 0 then ((x.getD 0 (0, 0)).1, (x.getD (b / 2) (0, 0)).1) else x.getD k (0, 0)

/-- TIFT of a packed block: the real parts in FP32 (R356). -/
def iftBlock (b : Nat) (slots : List Cx) : List Word :=
  let at' := fun i => slots.getD i ((0 : Word), (0 : Word))
  let a := (List.range b).map fun k =>
    if k = 0 then ((at' 0).1, (0 : Word))
    else if k = b / 2 then ((at' 0).2, 0)
    else if k < b / 2 then at' k
    else ((at' (b - k)).1, fneg32 (at' (b - k)).2)
  (transform b true false a).map Prod.fst

/-- XCHAIN of a packed block (R358). -/
def chainBlock (b : Nat) (act : Act) (beta : Int) (slots : List Cx) : List Cx :=
  fftBlock b ((iftBlock b slots).map fun s => round32 ((actNum act ((num32 s).scale beta)).scale (-beta)))

end Sys2Proof.Machine
end

