-- ==== Sys2Proof/Machine/TensorOps.lean ====
section
/-! DEFINITION. The issue of the instructions of groups 0xD and 0xE (R339-R341, R348-R361): their checks in order, the
updates of tensor entries, and what each hands to its engine. -/
namespace Sys2Proof.Machine

/-! ## Checks -/

/-- Entry named by an operand, raw and decoded. -/
def Ctx.ent (c : Ctx) (o : Operand) : BitVec 256 := c.b.tens' (tNum o)
def Ctx.tens (c : Ctx) (o : Operand) : Tens := tensOf (c.ent o)

/-- A check that raises a trap with every active lane. -/
def Ctx.must (c : Ctx) (ok : Bool) (cause : Byte) : Check := if ok then none else some (cause, c.act, 0)

/-- TENSOR_UNDEF (R341). -/
def Ctx.undefCheck (c : Ctx) (os : List Operand) : Check := c.must (os.all fun o => (c.tens o).v) Cause.tensorUndef
/-- DOMAIN_MISMATCH: every entry of a list has the domain given. -/
def Ctx.domCheck (c : Ctx) (freq : Bool) (ts : List Tens) : Check := c.must (ts.all fun t => t.freq == freq) Cause.domainMismatch

/-- A memory entry: global space or scratchpad. -/
def Tens.inMem (t : Tens) : Bool := t.space == 0 || t.space == 1
def Tens.inScr (t : Tens) : Bool := t.space == 1
def Tens.inAcc (t : Tens) : Bool := t.space == 2

/-- Bounds over the extents of some entries (R10, R25, R59). -/
def Ctx.extentChecks (s : State) (c : Ctx) (ts : List Tens) : List Check :=
  (ts.map fun t => if t.space = 0 then c.vaRange s false t.base t.extent else none)
  ++ (ts.map fun t => if t.space = 1 then c.scrRange c.b true t.base t.extent else none)
  ++ (ts.map fun t => if t.space = 2 && decide (4096 * c.b.accUnits < t.base + t.extent) then
        some (Cause.accBound, c.act, .ofNat 64 t.base) else none)

/-- The range an entry's memory extent registers; none in the accumulator. -/
def Ctx.tensRange (c : Ctx) (dst : Bool) (t : Tens) : List EngRange :=
  if t.inMem then [⟨c.b.core, c.bi, dst, t.inScr, t.base, t.extent⟩] else []

/-- Write an entry of the block. -/
def setEntry (bi : Nat) (o : Operand) (e : BitVec 256) (s : State) : State := s.updBlock bi fun b => b.setTens (tNum o) e

/-- A write of an entry clears its poison (R193). -/
def State.cureEntry (s : State) (bi : Nat) (o : Operand) : State :=
  s.updBlock bi fun b => { b with tensPoison := Sparse.set false b.tensPoison (tNum o) false }

/-- A captured entry that is not there. -/
def noEnt : BitVec 256 := 0

/-! ## TDEF and TQRY (R348, R349) -/

/-- TDEF. -/
def execTdef (h : Hdr) (d a : Operand) (s : State) : Out :=
  issue s h fun c =>
    let e := (List.range 8).foldr (fun j (acc : BitVec 256) => acc <<< 32 ||| (c.w.readAt a 0 j).setWidth 256) 0
    guardTraps s c [c.regCheck [] [(a, 8)]] <|
      if !c.anyActive then .next (s.retire c c.w (some a) none)
      else guardTraps s c [c.must (tensValid e) Cause.tensorInvalid]
        (.next (((setEntry c.bi d e s).cureEntry c.bi d).retire c c.w (some a) none))

/-- TQRY: its K destination is written whatever the lane mask. -/
def execTqry (h : Hdr) (d a : Operand) (s : State) : Out :=
  issue s h fun c =>
    let e := c.ent a
    let ws := (List.range 8).map fun j => e.extractLsb' (32 * j) 32
    guardTraps s c [c.regCheck [(d, 8)] []] (.next (s.retire c (c.w.writeWords d 0 0 ws) none none))

/-! ## Matrix products (R350, R351, R355) -/

def isF8 (f : Nat) : Bool := f == 3 || f == 4
def isI8 (f : Nat) : Bool := f == 8 || f == 9

/-- The format combinations of TMMA (R350). -/
def tmmaFormats (a b c : Nat) : Bool :=
  (isF8 a && isF8 b && c == 0) || (a == 2 && b == 2 && c == 0) || (a == 1 && b == 1 && c == 0) || (isI8 a && isI8 b && c == 10)
/-- The format combinations of TMMD. -/
def tmmdFormats (a b c : Nat) : Bool := (isF8 a || a == 1 || a == 2) && b == 5 && c == 0

/-- Bands of 64 rows. -/
def bandsOf (rows : Nat) : Nat := (rows + 63) / 64
/-- ceil(a / b). -/
def ceilDiv (a b : Nat) : Nat := (a + b - 1) / b
/-- K rounded up to a multiple of 16. -/
def up16 (k : Nat) : Nat := (k + 15) / 16 * 16

/-- The least clk of a product (R347). -/
def productCost (m n k fa fb : Nat) : Nat :=
  let w := m * n * up16 k
  if fb = 5 then ceilDiv w 524288 else if isF8 fa || isI8 fa then ceilDiv w 262144 else ceilDiv w 65536

/-- What TMMA and TMMD share. -/
def matrixProduct (h : Hdr) (i : Instr) (opk : Nat) (formats : Nat → Nat → Nat → Bool) (bt : Bool) (d a b : Operand)
    (tag : BitVec 6) (s : State) : Out :=
  issue s h fun c =>
    let td := c.tens d
    let ta := c.tens a
    let tb := c.tens b
    let shape := td.rows == ta.rows && (if bt then tb.rows == td.cols && tb.cols == ta.cols else tb.rows == ta.cols && tb.cols == td.cols)
    engineIssue s c [c.regCheck [] [], c.roleCheck [2], c.convCheck]
      (c.extentChecks s [td, ta, tb])
      { kind := .matLoad, ctr := .tl, tag := tag.toNat, instr := i, ents := [c.ent d, c.ent a, c.ent b]
        ranges := c.tensRange false ta ++ c.tensRange false tb
        post := some (opk, bandsOf td.rows, productCost td.rows td.cols ta.cols ta.fmt tb.fmt) }
      none none id
      [c.undefCheck [d, a, b], c.domCheck false [td, ta, tb],
       c.must (td.inAcc && ta.inMem && tb.inMem && formats ta.fmt tb.fmt td.fmt && shape) Cause.tensorOperand]

/-- TMMA. -/
def execTmma (h : Hdr) (bt : Bool) (d a b : Operand) (tag : BitVec 6) (s : State) : Out :=
  matrixProduct h (.tmma h bt d a b tag) 0 tmmaFormats bt d a b tag s

/-- TMMD. -/
def execTmmd (h : Hdr) (bt : Bool) (d a b : Operand) (tag : BitVec 6) (s : State) : Out :=
  matrixProduct h (.tmmd h bt d a b tag) 1 tmmdFormats bt d a b tag s

/-- TVMM (R351). -/
def execTvmm (h : Hdr) (d a b : Operand) (tag : BitVec 6) (tw : Operand) (s : State) : Out :=
  issue s h fun c =>
    let td := c.tens d
    let tx := c.tens a
    let wt := c.tens tw
    let ptr := fun l => (c.w.read64 b l).toNat
    let ps := ((lanesOf c.act).map ptr).filter fun p => p != 0
    let distinct := ps.eraseDups
    let laneMask := fun (bad : Nat → Bool) => maskOf fun l => c.act.getLsbD l && ptr l != 0 && bad (ptr l)
    let laneCheck := fun (cause : Byte) (bad : Nat → Bool) =>
      match (lanesOf (laneMask bad)).head? with
      | some l => some (cause, laneMask bad, BitVec.ofNat 64 (ptr l))
      | none => none
    engineIssue s c [c.regCheck [] [(b, 2)], c.roleCheck [2], c.convCheck]
      ([if tx.space = 0 then c.vaRange s false tx.base tx.extent else none, laneCheck Cause.badAddress fun p => !s.rangeOk p wt.extent]
        ++ c.extentChecks s [td, tx] ++ [laneCheck Cause.alignment fun p => p % 16 != 0])
      { kind := .matLoad, ctr := .tl, tag := tag.toNat, instr := .tvmm h d a b tag tw, ents := [c.ent d, c.ent a, c.ent tw]
        vals := c.act.setWidth 64 :: (List.range 32).map fun l => .ofNat 64 (ptr l)
        ranges := c.tensRange false tx ++ distinct.map fun p => ⟨c.b.core, c.bi, false, false, p, wt.extent⟩
        lanes := (c.tensRange false tx).map (fun _ => c.act) ++ distinct.map fun p => maskOf fun l => c.act.getLsbD l && ptr l == p
        post := some (2, 1, distinct.length * productCost 32 td.cols tx.cols tx.fmt wt.fmt) }
      none (some b) id
      [c.undefCheck [d, a, tw], c.domCheck false [td, tx, wt],
       c.must (td.inAcc && tx.inMem && wt.space == 0
         && (tmmaFormats tx.fmt wt.fmt td.fmt || tmmdFormats tx.fmt wt.fmt td.fmt)
         && decide (32 ≤ tx.rows) && decide (32 ≤ td.rows) && wt.rows == tx.cols && wt.cols == td.cols) Cause.tensorOperand]

/-- SCALE_MISMATCH of an exponent outside its field. -/
def sigmaOk (x : Int) : Bool := decide (-128 ≤ x) && decide (x ≤ 127)

/-- TMMS (R355). -/
def execTmms (h : Hdr) (d a b : Operand) (tag : BitVec 6) (s : State) : Out :=
  issue s h fun c =>
    let td := c.tens d
    let tw := c.tens a
    let tx := c.tens b
    let sg := tw.sigma + tx.sigma
    let half := tw.b / 2
    engineIssue s c [c.regCheck [] [], c.roleCheck [2], c.convCheck]
      (c.extentChecks s [td, tw, tx])
      { kind := .matLoad, ctr := .tl, tag := tag.toNat, instr := .tmms h d a b tag, ents := [c.ent d, c.ent a, c.ent b]
        ranges := c.tensRange false tw ++ c.tensRange false tx
        post := some (3, bandsOf td.rows, ceilDiv (tx.rows * tw.rows * tw.cols) 16384) }
      none none (setEntry c.bi d (setSfix (setSigma (c.ent d) sg) true))
      [c.undefCheck [d, a, b], c.domCheck true [td, tw, tx],
       c.must (td.inAcc && tw.inMem && tx.inMem && tw.cols == tx.cols && td.rows == tx.rows && td.cols == tw.rows * half)
         Cause.tensorOperand,
       c.must (tw.blk == tx.blk && tw.blk == td.blk) Cause.binMismatch,
       c.must (sigmaOk sg && !(td.sfix && td.sigma != sg)) Cause.scaleMismatch]

/-! ## Accumulator moves (R352-R354) -/

/-- TZERO: it holds no tag. -/
def execTzero (h : Hdr) (d : Operand) (s : State) : Out :=
  issue s h fun c =>
    let td := c.tens d
    engineIssue s c [c.regCheck [] [], c.roleCheck [2], c.convCheck] (c.extentChecks s [td])
      { kind := .matLoad, ctr := .tl, tag := 0, notag := true, instr := .tzero h d, ents := [c.ent d], ranges := []
        post := some (4, bandsOf td.rows, 0) }
      none none (setEntry c.bi d (setSfix (c.ent d) false))
      [c.undefCheck [d], c.must td.inAcc Cause.tensorOperand]

/-- The format combinations of TACCLD (R353). -/
def taccldFormats (freq : Bool) (s c : Nat) : Bool :=
  if freq then s == 6 && c == 7 else (decide (s ≤ 5) && c == 0) || ((isI8 s || s == 10) && c == 10)

/-- TACCLD. -/
def execTaccld (h : Hdr) (d a : Operand) (tag : BitVec 6) (s : State) : Out :=
  issue s h fun c =>
    let td := c.tens d
    let ts := c.tens a
    let upd := if ts.freq then setEntry c.bi d (setSfix (setSigma (c.ent d) ts.sigma) true) else id
    engineIssue s c [c.regCheck [] [], c.roleCheck [2, 3], c.convCheck] (c.extentChecks s [td, ts])
      { kind := .matLoad, ctr := .tl, tag := tag.toNat, instr := .taccld h d a tag, ents := [c.ent d, c.ent a]
        ranges := c.tensRange false ts, post := some (5, bandsOf td.rows, 0) }
      none none upd
      [c.undefCheck [d, a], c.domCheck td.freq [ts],
       c.must (td.inAcc && ts.inMem && taccldFormats ts.freq ts.fmt td.fmt && td.rows == ts.rows && td.cols == ts.cols)
         Cause.tensorOperand,
       c.must (!ts.freq || ts.blk == td.blk) Cause.binMismatch]

/-- A destination format of narrow (R354). -/
def narrowFmt (f : Nat) : Bool := decide (f ≤ 5) || isI8 f || f == 10

/-- TACCST. -/
def execTaccst (h : Hdr) (act : Act) (d a b : Operand) (tag : BitVec 6) (scale : Operand) (s : State) : Out :=
  issue s h fun c =>
    let td := c.tens d
    let tc := c.tens a
    let tb := c.tens b
    let bias := b != .zero
    let alpha := c.w.read scale 0
    let same := td.inMem && tc.inAcc && td.rows == tc.rows && td.cols == tc.cols
    let okTime := narrowFmt td.fmt && (tc.fmt == 0 || tc.fmt == 10)
      && (!bias || (tb.inMem && decide (tb.fmt ≤ 2) && tb.cols == td.cols))
    let okFreq := td.fmt == 6 && act == .none && !bias && alpha == 0x3F800000
    let upd := if tc.freq then setEntry c.bi d (setSigma (setDom (c.ent d) true) tc.sigma) else id
    engineIssue s c [c.regCheck [] [(scale, 1)], c.roleCheck [3], c.convCheck]
      (c.extentChecks s ([td, tc] ++ if bias then [tb] else []))
      { kind := .matStore, ctr := .tl, tag := tag.toNat, instr := .taccst h act d a b tag scale
        ents := [c.ent d, c.ent a, if bias then c.ent b else noEnt], vals := [alpha.setWidth 64]
        ranges := c.tensRange true td, post := some (6, bandsOf tc.rows, 0) }
      none none upd
      [c.undefCheck ([d, a] ++ if bias then [b] else []), c.domCheck tc.freq [td], c.domCheck false (if bias then [tb] else []),
       c.must (same && (if tc.freq then okFreq else okTime)) Cause.tensorOperand,
       c.must (!tc.freq || td.blk == tc.blk) Cause.binMismatch]

/-! ## The cluster transform unit (R356, R358) -/

/-- TFFT. -/
def execTfft (h : Hdr) (d a : Operand) (tag : BitVec 6) (s : State) : Out :=
  issue s h fun c =>
    let td := c.tens d
    let ti := c.tens a
    let sg := ti.beta + ti.logb
    engineIssue s c [c.regCheck [] []] (c.extentChecks s [td, ti])
      { kind := .ctu, ctr := .tl, tag := tag.toNat, instr := .tfft h d a tag, ents := [c.ent d, c.ent a]
        ranges := c.tensRange false ti ++ c.tensRange true td }
      none none (setEntry c.bi d (setSigma (setDom (c.ent d) true) sg))
      [c.undefCheck [d, a], c.domCheck false [ti],
       c.must (ti.inMem && td.inMem && decide (ti.fmt ≤ 4) && td.fmt == 6 && td.rows == ti.rows && ti.cols % ti.b == 0
         && 2 * td.cols == ti.cols) Cause.tensorOperand,
       c.must (td.blk == ti.blk) Cause.binMismatch, c.must (sigmaOk sg) Cause.scaleMismatch]

/-- TIFT. -/
def execTift (h : Hdr) (d a : Operand) (tag : BitVec 6) (s : State) : Out :=
  issue s h fun c =>
    let td := c.tens d
    let ti := c.tens a
    let bt := ti.sigma - ti.logb
    engineIssue s c [c.regCheck [] []] (c.extentChecks s [td, ti])
      { kind := .ctu, ctr := .tl, tag := tag.toNat, instr := .tift h d a tag, ents := [c.ent d, c.ent a]
        ranges := c.tensRange false ti ++ c.tensRange true td }
      none none (setEntry c.bi d (setBeta (setDom (c.ent d) false) bt))
      [c.undefCheck [d, a], c.domCheck true [ti],
       c.must (td.inMem && decide (td.fmt ≤ 2) && td.rows == ti.rows && td.cols == 2 * ti.cols) Cause.tensorOperand,
       c.must (td.blk == ti.blk) Cause.binMismatch, c.must (sigmaOk bt) Cause.scaleMismatch]

/-- XCHAIN.  Tout is FREQ before it as well: R358 says so of both entries (DEDUCED, log entry 52). -/
def execXchain (h : Hdr) (act : Act) (d a : Operand) (tag : BitVec 6) (s : State) : Out :=
  issue s h fun c =>
    let td := c.tens d
    let ti := c.tens a
    engineIssue s c [c.regCheck [] []] (c.extentChecks s [td, ti])
      { kind := .ctu, ctr := .tl, tag := tag.toNat, instr := .xchain h act d a tag, ents := [c.ent d, c.ent a]
        ranges := c.tensRange false ti ++ c.tensRange true td }
      none none (setEntry c.bi d (setSigma (setDom (c.ent d) true) ti.sigma))
      [c.undefCheck [d, a], c.domCheck true [ti, td],
       c.must (ti.inMem && td.inMem && td.fmt == 6 && td.rows == ti.rows && td.cols == ti.cols) Cause.tensorOperand,
       c.must (td.blk == ti.blk) Cause.binMismatch]

/-! ## XFM and TABLD (R359, R361) -/

/-- XFM. -/
def execXfm (h : Hdr) (tr : Bool) (d a : Operand) (tag : BitVec 6) (s : State) : Out :=
  issue s h fun c =>
    let td := c.tens d
    let ts := c.tens a
    let shape := if tr then td.rows == ts.cols && td.cols == ts.rows else td.rows == ts.rows && td.cols == ts.cols
    engineIssue s c [c.regCheck [] []] (c.extentChecks s [td, ts])
      { kind := .pipe (c.w.part.val / 4), ctr := .cp, tag := tag.toNat, instr := .xfm h tr d a tag, ents := [c.ent d, c.ent a]
        ranges := c.tensRange false ts ++ c.tensRange true td }
      none none id
      [c.undefCheck [d, a], c.domCheck false [td, ts],
       c.must (ts.inMem && td.inMem && narrowFmt ts.fmt && narrowFmt td.fmt && shape) Cause.tensorOperand]

/-- TABLD: the table's range is registered, and the table read as a plain uniform load for which the slot waits; it must be one that
R105 admits. -/
def execTabld (h : Hdr) (a : Operand) (tag : BitVec 6) (gen : BitVec 4) (s : State) : Out :=
  issue s h fun c => counted s c .cp <|
    let s := s.dropLocks (heldRange c.wi c.isB)
    let va := c.uni64 a
    let range : List EngRange := [⟨c.b.core, c.bi, false, false, va, 256⟩]
    let accs := (lanesOf c.act).map fun l => (l, va)
    guardTraps s c [c.regCheck [] [(a, 2)]] <|
      if !c.anyActive then .next (s.retire c c.w (some a) none)
      else guardTraps s c [c.must (c.g.vm == 0) Cause.privileged] <|
        if !s.locksFit range || !s.engineFree c.b.core c.bi .ctu then .next s.notReady
        else guardTraps s c [c.tagCheck false tag.toNat, c.vaRange s false va 256, c.uniAlign 64 [va], c.rangeCheck s range,
            c.cancelCheck accs 256] <|
          if s.misses c.unit c.space .load (walkedVas accs 256) != [] then
            thenDo (reach s c .load accs 256 (.next s)) fun s => s.addLocks c.g.vm c.g.asid tag.toNat (heldRange c.wi c.isB) range
          else reach s c .load accs 256 <|
            let r := s.loadBytes c.b.core c.b.cls.val false ((span va 256).map fun x => s.locOf c .load x)
            guardTraps s c [c.must (!r.2.2 && tableOk (r.2.1.map BitVec.toNat)) Cause.badTable]
              (let req : EngReq :=
                { kind := .ctu, ctr := .cp, tag := tag.toNat, instr := .tabld h a tag gen
                  vals := r.2.1.map fun b => b.setWidth 64, ranges := range }
               .next ((r.1.enterEngine c req).retire c (c.engCounted r.1 req) (some a) none))

end Sys2Proof.Machine
end

