-- ==== Sys2Proof/Machine/TensorRun.lean ====
section
/-! DEFINITION. What the matrix engine, the cluster transform unit and the transform pipes do with an operation (R342-R347,
R350-R361): the arbiter, one band of 64 rows, whole transforms, and the replacement of code tables (R106). -/
namespace Sys2Proof.Machine

/-! ## Rows of elements -/

/-- Elements of `e` bytes, each with its poison. -/
def elemsOf (e : Nat) (bs : List (Byte × Bool)) : List (Nat × Bool) :=
  (List.range (bs.length / e)).map fun k =>
    let x := (bs.drop (e * k)).take e
    (leNat (x.map Prod.fst), x.any Prod.snd)

/-- One row of a memory entry whose first byte is `base`. -/
def State.engRow (s : State) (i : Nat) (o : EngOp) (t : Tens) (base r : Nat) : Eng (List (Nat × Bool)) :=
  (s.engSource i o t.inScr (base + r * t.stride) (t.cols * t.elem)).bind fun s bs => .ok s (elemsOf t.elem bs)

/-- Rows of a memory entry, in order. -/
def State.engRows (s : State) (i : Nat) (o : EngOp) (t : Tens) (base : Nat) : List Nat → Eng (List (List (Nat × Bool)))
  | [] => .ok s []
  | r :: rs => (s.engRow i o t base r).bind fun s x => (s.engRows i o t base rs).bind fun s xs => .ok s (x :: xs)

/-- Word `k` of element (r, j) of an accumulator entry. -/
def accWordIx (t : Tens) (r j k : Nat) : Nat := (t.base + r * t.stride + j * t.elem) / 4 + k
def Block.accWord (b : Block) (q : Nat) : Word × Bool := (Sparse.get 0 b.accum q, Sparse.get false b.accPoison q)

/-- The bytes of a row written to a memory entry. -/
def State.engPutRow (s : State) (i : Nat) (o : EngOp) (t : Tens) (r : Nat) (bs : List (Byte × Bool)) : Eng (List EngWrite) :=
  (s.engDest i o t.inScr (t.base + r * t.stride) bs.length).bind fun s ts => .ok s (engWrites ts bs)

/-- Write rows of a memory entry in order. -/
def State.engPutRows (s : State) (i : Nat) (o : EngOp) (t : Tens) : List (Nat × List (Byte × Bool)) → Eng (List EngWrite)
  | [] => .ok s []
  | (r, bs) :: rest =>
    (s.engPutRow i o t r bs).bind fun s ws => (s.engPutRows i o t rest).bind fun s more => .ok s (ws ++ more)

/-- An element as bytes with its poison. -/
def elemBytes (n v : Nat) (p : Bool) : List (Byte × Bool) := (leBytes n v).map fun b => (b, p)

/-- A captured entry of an operation. -/
def EngOp.ent (o : EngOp) (k : Nat) : Tens := tensOf (o.ents.getD k 0)

/-- The rows of band `k`. -/
def bandRows (rows k : Nat) : List Nat := span (64 * k) (min 64 (rows - 64 * k))

/-! ## The bands (R346) -/

/-- One output row of a matrix product: start values, the row of the left operand, the columns of the right one. -/
def productRow (tc ta tb : Tens) (start : List (Word × Bool)) (as : List (Nat × Bool)) (cols : List (List (Nat × Bool))) :
    List (Word × Bool) :=
  let rowBad := as.any Prod.snd
  (start.zip cols).map fun x =>
    let av := as.map Prod.fst
    let bv := x.2.map Prod.fst
    let v := if tc.fmt = 10 then dotInt ta.fmt tb.fmt x.1.1 av bv
      else dotFloat ta.fmt tb.fmt (ta.beta + tb.beta - tc.beta) x.1.1 av bv
    (v, x.1.2 || rowBad || x.2.any Prod.snd)

/-- The columns of a matrix read by rows. -/
def columns (n : Nat) (rows : List (List (Nat × Bool))) : List (List (Nat × Bool)) :=
  (List.range n).map fun j => rows.map fun r => r.getD j (0, false)

/-- The writes of a row of accumulator words. -/
def accRow (bi : Nat) (t : Tens) (r : Nat) (vs : List (List (Word × Bool))) : List EngWrite :=
  (List.range vs.length).flatMap fun j =>
    let v := vs.getD j []
    (List.range v.length).map fun k =>
      let x := v.getD k (0, false)
      ⟨.acc bi (accWordIx t r j k), x.1, x.2⟩

/-- Band `k` of TMMA or TMMD (R350). -/
def State.bandProduct (s : State) (i : Nat) (o : EngOp) (bt : Bool) (k : Nat) : Eng (List EngWrite) :=
  let tc := o.ent 0
  let ta := o.ent 1
  let tb := o.ent 2
  let rows := bandRows tc.rows k
  (s.engRows i o ta ta.base rows).bind fun s as =>
    (s.engRows i o tb tb.base (List.range tb.rows)).bind fun s bs =>
      let cols := if bt then bs else columns tc.cols bs
      let b := s.block o.block
      .ok s ((rows.zip as).flatMap fun x =>
        let start := (List.range tc.cols).map fun j => b.accWord (accWordIx tc x.1 j 0)
        accRow o.block tc x.1 ((productRow tc ta tb start x.2 cols).map fun v => [v]))

/-- The lanes of a TVMM (R351). -/
def State.bandVmm (s : State) (i : Nat) (o : EngOp) : List Nat → Eng (List EngWrite)
  | [] => .ok s []
  | l :: ls =>
    let tc := o.ent 0
    let tx := o.ent 1
    let tw := o.ent 2
    let p := (o.vals.getD (l + 1) 0).toNat
    let row : Eng (List EngWrite) :=
      if p = 0 then .ok s (accRow o.block tc l (List.replicate tc.cols [((0 : Word), false)]))
      else
        (s.engRow i o tx tx.base l).bind fun s as =>
          (s.engRows i o { tw with space := 0 } p (List.range tw.rows)).bind fun s bs =>
            let start := List.replicate tc.cols ((0 : Word), false)
            .ok s (accRow o.block tc l ((productRow tc tx tw start as (columns tc.cols bs)).map fun v => [v]))
    row.bind fun s ws => (s.bandVmm i o ls).bind fun s more => .ok s (ws ++ more)

/-- Band `k` of TMMS (R355). -/
def State.bandSpectral (s : State) (i : Nat) (o : EngOp) (k : Nat) : Eng (List EngWrite) :=
  let tc := o.ent 0
  let tw := o.ent 1
  let tx := o.ent 2
  let half := tw.b / 2
  let rows := bandRows tc.rows k
  (s.engRows i o tw tw.base (List.range tw.rows)).bind fun s ws =>
    (s.engRows i o tx tx.base rows).bind fun s xs =>
      let b := s.block o.block
      .ok s ((rows.zip xs).flatMap fun x =>
        accRow o.block tc x.1 ((List.range tc.cols).map fun j =>
          let slot := j % half
          let wrow := ws.getD (j / half) []
          let re := b.accWord (accWordIx tc x.1 j 0)
          let im := b.accWord (accWordIx tc x.1 j 1)
          let terms := (List.range (tw.cols / half)).map fun q =>
            (wrow.getD (q * half + slot) (0, false), x.2.getD (q * half + slot) (0, false))
          let v := terms.foldl (fun a t => specStep (slot == 0) a (cb16 t.1.1) (cb16 t.2.1)) (re.1, im.1)
          let bad := re.2 || im.2 || terms.any fun t => t.1.2 || t.2.2
          [(v.1, bad), (v.2, bad)]))

/-- Band `k` of TZERO (R352). -/
def bandZero (o : EngOp) (k : Nat) : List EngWrite :=
  let tc := o.ent 0
  (bandRows tc.rows k).flatMap fun r =>
    accRow o.block tc r (List.replicate tc.cols (List.replicate (tc.elem / 4) ((0 : Word), false)))

/-- A NaN of either sign or payload as the canonical one (R236). -/
def canonNan32 (w : Word) : Word :=
  match num32 w with
  | .nan => 0x7FC00000
  | _ => w

/-- An element that TACCLD moves (R353); a NaN component is canonical (R236). -/
def loadElem (ts tc : Tens) (v : Nat) : List Word :=
  if ts.freq then [canonNan32 (cb16 v).1, canonNan32 (cb16 v).2]
  else if tc.fmt = 10 then [.ofInt 32 (elemInt ts.fmt v)]
  else [round32 ((elemNum ts.fmt v).scale (ts.beta - tc.beta))]

/-- Band `k` of TACCLD. -/
def State.bandLoad (s : State) (i : Nat) (o : EngOp) (k : Nat) : Eng (List EngWrite) :=
  let tc := o.ent 0
  let ts := o.ent 1
  let rows := bandRows tc.rows k
  (s.engRows i o ts ts.base rows).bind fun s xs =>
    .ok s ((rows.zip xs).flatMap fun x =>
      accRow o.block tc x.1 (x.2.map fun e => (loadElem ts tc e.1).map fun w => (w, e.2)))

/-- An element of a TIME epilogue (R354): accumulator word, bias and the scale. -/
def epilogue (act : Act) (td tc : Tens) (alpha : Word) (c : Word) (bias : FNum) : Nat :=
  let cv := if tc.fmt = 10 then ofIntAt c.toInt 0 false else num32 c
  let u := round32 ((((num32 alpha).mul cv).scale tc.beta).add bias)
  let y := round32 (actNum act (num32 u))
  narrowTo td.fmt td.beta (num32 y)

/-- Some rows of TACCST. -/
def State.bandStore (s : State) (i : Nat) (o : EngOp) (act : Act) (bias : Bool) (rows : List Nat) : Eng (List EngWrite) :=
  let td := o.ent 0
  let tc := o.ent 1
  let tb := o.ent 2
  let alpha : Word := (o.vals.getD 0 0).setWidth 32
  (if bias then s.engRow i o tb tb.base 0 else .ok s []).bind fun s brow =>
    let b := s.block o.block
    let elem := fun (r j : Nat) =>
      let c0 := b.accWord (accWordIx tc r j 0)
      if tc.freq then
        let c1 := b.accWord (accWordIx tc r j 1)
        elemBytes 4 (toCb16 (c0.1, c1.1)) (c0.2 || c1.2)
      else
        let bj := brow.getD j (0, false)
        let bv := if bias then (elemNum tb.fmt bj.1).scale tb.beta else .fin false 0 0
        elemBytes td.elem (epilogue act td tc alpha c0.1 bv) (c0.2 || (bias && bj.2))
    s.engPutRows i o td (rows.map fun r => (r, (List.range tc.cols).flatMap (elem r)))

/-- The rows of a TACCST's band that are not written yet: it writes them one by one during the band (R346); of another operation's band
none. -/
def EngOp.rowsLeft (o : EngOp) (k : Nat) : List Nat :=
  match o.instr with
  | .taccst .. => (bandRows (o.ent 1).rows k).drop o.done
  | _ => []

/-- One band of a matrix-engine operation, of a TACCST its next row. -/
def State.runBand (s : State) (i : Nat) (o : EngOp) (k : Nat) : Eng (List EngWrite) :=
  match o.instr with
  | .tmma _ bt _ _ _ _ => s.bandProduct i o bt k
  | .tmmd _ bt _ _ _ _ => s.bandProduct i o bt k
  | .tvmm .. => s.bandVmm i o (lanesOf ((o.vals.getD 0 0).setWidth 32))
  | .tmms .. => s.bandSpectral i o k
  | .tzero .. => .ok s (bandZero o k)
  | .taccld .. => s.bandLoad i o k
  | .taccst _ act _ _ b _ _ => s.bandStore i o act (b != .zero) ((o.rowsLeft k).take 1)
  | _ => .ok s []

/-! ## Order and arbitration (R342-R345, R347) -/

/-- The accumulator extent of an operation: first byte and length (R342). -/
def EngOp.accExtent (o : EngOp) : Option (Nat × Nat) :=
  let of := fun (t : Tens) => if t.inAcc then some (t.base, t.extent) else none
  match o.instr with
  | .taccst .. | .tift .. => of (o.ent 1)
  | .tmma .. | .tmmd .. | .tvmm .. | .tmms .. | .tzero .. | .taccld .. => of (o.ent 0)
  | _ => none

/-- An earlier operation of the block still has to access bytes of this one's accumulator extent (R342). -/
def State.accHeld (s : State) (i : Nat) (o : EngOp) : Bool :=
  match o.accExtent with
  | none => false
  | some (b, n) => (s.ops.take i).any fun p => p.block == o.block && p.life == .running &&
      match p.accExtent with
      | some (b', n') => decide (b < b' + n') && decide (b' < b + n)
      | none => false

/-- The entry of an operation. -/
def State.resvFor (s : State) (cl i : Nat) : Option Resv := (s.resvOf cl).find? fun r => r.op == i
def State.updResv (s : State) (cl i : Nat) (f : Resv → Resv) : State :=
  s.setResv cl ((s.resvOf cl).map fun r => if r.op == i then f r else r)

/-- No earlier operation of the same unit is under way: the transform unit and each pipe run in order (R347). -/
def State.unitFirst (s : State) (i : Nat) (o : EngOp) : Bool :=
  !(s.ops.take i).any fun p => p.engine == o.engine && p.life == .running && !p.saved
    && (if o.engine = 18 then clusterOf p.core == clusterOf o.core else p.core == o.core)

/-- Whether an operation may go on now: its unit has reached it (R342, R344, R347). -/
def State.opTurn (s : State) (i : Nat) (o : EngOp) : Bool :=
  if o.engine = 16 || o.engine = 17 then (s.resvFor (clusterOf o.core) i).any fun r => r.run
  else if o.engine = 18 then s.unitFirst i o && !s.accHeld i o
  else if isPipe o.engine then s.unitFirst i o
  else true

/-- The class an entry competes in (R344). -/
def Resv.compClass (r : Resv) (clk : Nat) : Nat := if r.promoted clk then 0 else r.cls

/-- The entry the arbiter grants. -/
def State.grantee (s : State) (cl : Nat) : Option Resv :=
  let rs := s.resvOf cl
  if rs.any Resv.run then none
  else
    let ready := rs.filter fun r => match s.ops[r.op]? with
      | some o => s.opRuns o && !s.accHeld r.op o
      | none => false
    ready.foldl (fun (m : Option Resv) r => match m with
      | none => some r
      | some x =>
        if r.compClass s.clk < x.compClass s.clk || (r.compClass s.clk = x.compClass s.clk && r.seq < x.seq) then some r else m) none

/-- RESERVATION_GRANT (R344). -/
def execReservationGrant (cluster : Nat) (s : State) : Out :=
  match s.grantee cluster with
  | none => .fault .eventCannotOccur
  | some r => .next (s.updResv cluster r.op fun r => { r with run := true, granted := some s.clk, promo := r.promoted s.clk })

/-- RESERVATION_PROMOTE (R344). -/
def execReservationPromote (cluster entry : Nat) (s : State) : Out :=
  match (s.resvOf cluster).find? fun r => r.place == entry with
  | none => .fault .eventCannotOccur
  | some r =>
    if r.promo || !r.promoted s.clk then .fault .eventCannotOccur
    else .next (s.updResv cluster r.op fun r => { r with promo := true })

/-- The running pass goes on: a band's end advances ROWPROG, a fault suspends the entry and discards the band in progress, and the last
band ends the operation (R345, R346). -/
def State.stepBand (s : State) (i : Nat) (o : EngOp) : Out :=
  let cl := clusterOf o.core
  match s.resvFor cl i with
  | none => .fault .eventCannotOccur
  | some r =>
    let last := decide (r.nband ≤ r.rowprog + 1)
    if last && decide ((o.rowsLeft r.rowprog).length ≤ 1) && decide (s.clk < r.granted.getD 0 + r.cost) then .fault .eventCannotOccur
    else match s.runBand i o r.rowprog with
      | .ok s' ws =>
        let s1 := s'.doWrites o ws
        if 1 < (o.rowsLeft r.rowprog).length then .next (s1.updOp i fun o => { o with done := o.done + 1 })
        else if last then .next (s1.finishOp i o none)
        else .next ((s1.updOp i fun o => { o with done := 0 }).updResv cl i fun r => { r with rowprog := r.rowprog + 1 })
      | .fault s' => .next ((s'.updOp i fun o => { o with done := 0 }).updResv cl i fun r => { r with run := false })
      | .fail s' e => .next ((s'.updOp i fun o => { o with failed := some e }).updResv cl i fun r => { r with run := false })
      | .wait s' => waited s s'
      | .more s' => .next s'

/-! ## Transforms -/

/-- Rows `n` of the input of a transform: CB16 or TIME words in memory, CF32 in the accumulator. -/
def State.inputRow (s : State) (i : Nat) (o : EngOp) (t : Tens) (r : Nat) : Eng (List (Cx × Bool)) :=
  if t.inAcc then
    let b := s.block o.block
    .ok s ((List.range t.cols).map fun j =>
      let re := b.accWord (accWordIx t r j 0)
      let im := b.accWord (accWordIx t r j 1)
      ((re.1, im.1), re.2 || im.2))
  else (s.engRow i o t t.base r).bind fun s es =>
    .ok s (es.map fun e => (if t.freq then cb16 e.1 else (round32 (elemNum t.fmt e.1), 0), e.2))

/-- Pieces of `n` of a list. -/
def chunks {α : Type} (n k : Nat) (l : List α) : List (List α) := (List.range k).map fun q => (l.drop (n * q)).take n

/-- The output bytes of a row: each block of `n` inputs transformed; a poisoned input poisons its block's output. -/
def transformRow (n outBytes : Nat) (f : List Cx → List Nat) (row : List (Cx × Bool)) : List (Byte × Bool) :=
  (chunks n (row.length / n) row).flatMap fun blk =>
    let bad := blk.any Prod.snd
    (f (blk.map Prod.fst)).flatMap fun v => elemBytes outBytes v bad

/-- Read some rows and transform each. -/
def State.transformRows (s : State) (i : Nat) (o : EngOp) (ti td : Tens) (n : Nat) (f : List Cx → List Nat) :
    List Nat → Eng (List (List (Byte × Bool)))
  | [] => .ok s []
  | r :: rs => (s.inputRow i o ti r).bind fun s row => (s.transformRows i o ti td n f rs).bind fun s more =>
      .ok s (transformRow n td.elem f row :: more)

/-- Read some rows, transform each, and write them. -/
def State.runRows (s : State) (i : Nat) (o : EngOp) (ti td : Tens) (n : Nat) (f : List Cx → List Nat) (rows : List Nat) :
    Eng (List EngWrite) :=
  (s.transformRows i o ti td n f rows).bind fun s outs => s.engPutRows i o td (rows.zip outs)

/-- Part of an entry: `rows` rows and `cols` columns from element (r, j). -/
def Tens.sub (t : Tens) (r j rows cols : Nat) : Tens := { t with base := t.base + r * t.stride + j * t.elem, rows := rows, cols := cols }

/-- The elements of a circulant block in the input and in the output of a transform. -/
def transformBlock (o : EngOp) : Nat × Nat :=
  let b := (o.ent 1).b
  match o.instr with
  | .tfft .. => (b, b / 2)
  | .tift .. => (b / 2, b)
  | _ => (b / 2, b / 2)
/-- The circulant blocks of a transform. -/
def transformParts (o : EngOp) : Nat := (o.ent 1).rows * ((o.ent 1).cols / (transformBlock o).1)

/-- What an operation of the transform unit writes of circulant block `k`: blocks go in ascending row order and within a row in ascending
order, each read whole before its output is written (R347). -/
def State.runTransform (s : State) (i : Nat) (o : EngOp) (k : Nat) : Eng (List EngWrite) :=
  let n := transformBlock o
  let q := (o.ent 1).cols / n.1
  let td := (o.ent 0).sub (k / q) (k % q * n.2) 1 n.2
  let ti := (o.ent 1).sub (k / q) (k % q * n.1) 1 n.1
  match o.instr with
  | .tfft .. => s.runRows i o ti td n.1 (fun xs => (fftBlock ti.b (xs.map Prod.fst)).map toCb16) [0]
  | .tift .. => s.runRows i o ti td n.1 (fun xs => (iftBlock ti.b xs).map fun v => narrowTo td.fmt 0 (num32 v)) [0]
  | .xchain _ act _ _ _ =>
    s.runRows i o ti td n.1 (fun xs => (chainBlock ti.b act (ti.sigma - ti.logb) xs).map toCb16) [0]
  | _ => .ok s []

/-- An element of one entry as XFM converts it to another (R359). -/
def xfmBytes (td ts : Tens) (e : Nat × Bool) : List (Byte × Bool) :=
  elemBytes td.elem (narrowTo td.fmt td.beta ((elemNum ts.fmt e.1).scale ts.beta)) e.2

/-- The addresses of element (r, j). -/
def Tens.at (t : Tens) (r j : Nat) : List Nat := span (t.base + r * t.stride + j * t.elem) t.elem

/-- The first byte that a list of bytes gives an address. -/
def byteIn (bs : List (Nat × Byte × Bool)) (a : Nat) : Byte × Bool := ((bs.find? fun x => x.1 == a).map Prod.snd).getD (0, false)

/-- Elements in a free order (DESIGN CHOICE, log entry 47). -/
def freeOrder {α : Type} (k : Nat) : Nat → List α → List α
  | 0, _ => []
  | n + 1, l =>
    let i := Config.overlapNext k (n + 1) % l.length
    match l[i]? with
    | some x => x :: freeOrder k n (l.eraseIdx i)
    | none => []

/-- Convert elements of an overlapping XFM in order: each takes its source as it stood before, `old`, or as the writes so far, `new`,
have left it (R359; DESIGN CHOICE, log entry 47). -/
def overlapXfm (k : Nat) (td ts : Tens) (old : List (Nat × Byte × Bool)) :
    List (List Nat × List Nat) → List (Nat × Byte × Bool) → List (Nat × Byte × Bool)
  | [], new => new
  | (src, dst) :: t, new =>
    let mem := if Config.overlapNew k t.length then new ++ old else old
    let e := src.map (byteIn mem)
    overlapXfm k td ts old t (dst.zip (xfmBytes td ts (leNat (e.map Prod.fst), e.any Prod.snd)) ++ new)

/-- Whether two entries in memory overlap. -/
def Tens.meets (t u : Tens) : Bool :=
  t.inScr == u.inScr && decide (t.base < u.base + u.extent) && decide (u.base < t.base + t.extent)

/-- The parts of an XFM whose entries do not overlap: for each destination row, its 256-byte lines (R147), as row, first element and
number of elements. -/
def xfmParts (td : Tens) : List (Nat × Nat × Nat) :=
  (List.range td.rows).flatMap fun r =>
    let a := td.base + r * td.stride
    (List.range (lineCount a (td.cols * td.elem))).map fun k =>
      let p := linePart a (td.cols * td.elem) k
      (r, p.1 / td.elem, p.2 / td.elem)

/-- What an XFM writes of one part (R359). -/
def State.runXfmPart (s : State) (i : Nat) (o : EngOp) (tr : Bool) (p : Nat × Nat × Nat) : Eng (List EngWrite) :=
  let td := o.ent 0
  let ts := o.ent 1
  let src := if tr then ts.sub p.2.1 p.1 p.2.2 1 else ts.sub p.1 p.2.1 1 p.2.2
  (s.engRows i o src src.base (List.range src.rows)).bind fun s els =>
    s.engPutRow i o (td.sub p.1 p.2.1 1 p.2.2) 0 (els.flatten.flatMap (xfmBytes td ts))

/-- What an XFM with overlapping entries writes, as one part (R359). -/
def State.runXfm (s : State) (i : Nat) (o : EngOp) (tr : Bool) : Eng (List EngWrite) :=
  let td := o.ent 0
  let ts := o.ent 1
  (s.engRows i o ts ts.base (List.range ts.rows)).bind fun s src =>
    let rs := List.range td.rows
    let old := src.zipIdx.flatMap fun x => x.1.zipIdx.flatMap fun y => (ts.at x.2 y.2).zip (elemBytes ts.elem y.1.1 y.1.2)
    let els := rs.flatMap fun r => (List.range td.cols).map fun j => (if tr then ts.at j r else ts.at r j, td.at r j)
    let new := overlapXfm s.choice td ts old (freeOrder s.choice els.length els) []
    s.engPutRows i o td (rs.map fun r => (r, (List.range td.cols).flatMap fun j => (td.at r j).map (byteIn new)))

/-! ## Code tables (R106, R361) -/

/-- The generation and lengths a TABLD carries. -/
def tabOf (o : EngOp) : Option TabSlot :=
  match o.instr with
  | .tabld _ _ _ gen => some ⟨gen.toNat, o.vals.map BitVec.toNat⟩
  | _ => none

/-- Load a table into an expander: the slot of its generation, else an empty one, else the one loaded earlier; slots are kept
in the order of their loading. -/
def loadSlot (slots : List TabSlot) (t : TabSlot) : List TabSlot :=
  if slots.any fun x => x.gen == t.gen then (slots.filter fun x => x.gen != t.gen) ++ [t]
  else if slots.length < 2 then slots ++ [t]
  else slots.drop 1 ++ [t]

/-- A stored prefix block that an expander on the way from the home turns into its plain form, once the expander's table has been
replaced: what the stream now decodes to is what a reader obtains, and one that does not decode is uncorrectable (R70, R103).  A line
that the L2 holds plain is not read through its block. -/
def State.reform (s : State) (e line : Nat) (block : List Byte) : State :=
  let k := 256 * line
  if s.expHome k block != e || s.heldBlock k = [] then s
  else match s.expand e block with
    | some bs =>
      if bs = s.lineBytes line then s
      else
        let bad := (List.range 8).any fun i => decide (32 * i < block.length) && s.granuleErr (k + 32 * i) == 2
        (List.range 4).foldl (fun s q => s.setSecPoison (k + 64 * q) bad) { s with mem := Sparse.setAll 0 s.mem (writesFrom k bs) }
    | none => (s.poisonLine line).logError 0x11 1 (k / 2 ^ 37) 0 31 (.ofNat 64 (paOfKey k))

def State.loadExpSlot (s : State) (e : Nat) (t : TabSlot) : State :=
  let s := { s with cmp := { s.cmp with slots := Sparse.set [] s.cmp.slots e (loadSlot (s.expSlots e) t) } }
  (s.cmp.stored.filter fun x => blockCodec x.2 == 2 && blockTgen x.2 == t.gen).foldl (fun s x => s.reform e x.1 x.2) s

/-- A TABLD issued after operation `i`, of the same generation, that has loaded an expander already: its table stays (R361). -/
def State.superseded (s : State) (i e : Nat) (t : TabSlot) : Bool :=
  (List.range s.ops.length).any fun j => match s.ops[j]? with
    | some o => decide (i < j) && (tabOf o).any (fun x => x.gen == t.gen) && (o.life == .done || o.slots.contains e)
    | none => false

/-- The oldest TABLD that has not reached an expander. -/
def State.tableFor (s : State) (e : Nat) : Option (Nat × TabSlot) :=
  ((List.range s.ops.length).filterMap fun i => match s.ops[i]? with
    | some o => if s.opRuns o && !o.slots.contains e && s.opTurn i o then (tabOf o).map fun t => (i, t) else none
    | none => none).head?

/-- TABLE_SLOT_REPLACE (R106): no block of the slot's generation is under expansion, and the waiting table takes its slot. -/
def execTableSlotReplace (expander : Nat) (s : State) : Out :=
  if expanderCount ≤ expander then .fault .eventCannotOccur
  else match s.tableFor expander with
    | none => .fault .eventCannotOccur
    | some (i, t) =>
      .next ((if s.superseded i expander t then s else s.loadExpSlot expander t).updOp i fun o =>
        { o with slots := expander :: o.slots })

/-- The expanders that a completing TABLD has still to reach are loaded. -/
def State.loadEverywhere (s : State) (i : Nat) (o : EngOp) (t : TabSlot) : State :=
  (List.range expanderCount).foldl (fun s e =>
    if o.slots.contains e || s.superseded i e t then s else s.loadExpSlot e t) s

end Sys2Proof.Machine
end

