-- ==== Sys2Proof/Machine/Rays.lean ====
section
/-! DEFINITION. The ray units and the material evaluator (R336, R337, R372-R380, R445, R446): TRACE and MATEV, traversal, the
material step with its lookup in the Landing, and the records they write. -/
namespace Sys2Proof.Machine

/-! ## Descriptor and issue (R336, R337) -/

namespace EngOp
def rayBvh (o : EngOp) : Nat := bits (o.vals.getD 0 0) 55 0
def rayMtab (o : EngOp) : Nat := bits (o.vals.getD 1 0) 55 0
def rayIn (o : EngOp) (i : Nat) : Nat := bits (o.vals.getD 2 0) 55 0 + 64 * i
def rayOut (o : EngOp) (i : Nat) : Nat := bits (o.vals.getD 3 0) 55 0 + 64 * i
def raySort (o : EngOp) : Bool := (o.vals.getD 4 0).getLsbD 63
def rayAny (o : EngOp) : Bool := (o.vals.getD 4 0).getLsbD 62
def rayBounces (o : EngOp) : Nat := bits (o.vals.getD 4 0) 55 48
def rayCount (o : EngOp) : Nat := bits (o.vals.getD 4 0) 31 0
def raySeed (o : EngOp) : Word := .ofNat 32 (bits (o.vals.getD 5 0) 31 0)
end EngOp

/-- RAY_DESC on a descriptor's contents (R336). -/
def rayDescBad (ws : List DWord) : Bool :=
  let w := fun i => ws.getD i 0
  (List.range 4).any (fun i => bits (w i) 63 56 != 0 || bits (w i) 5 0 != 0)
    || bits (w 4) 61 56 != 0 || bits (w 4) 47 32 != 0 || bits (w 5) 63 32 != 0 || w 6 != 0 || w 7 != 0
    || decide (2 ^ 24 < bits (w 4) 31 0)

/-- The issue that TRACE and MATEV share, with the checks of R337 in their order. -/
def rayIssue (s : State) (c : Ctx) (kind : EngKind) (instr : Instr) (a : Operand) (tag : BitVec 6) : Out :=
  counted s c .cp <|
    let va := c.uni64 a
    let accs := (lanesOf c.act).map fun l => (l, va)
    guardTraps s c [c.regCheck [] [(a, 2)]] <|
      if !c.anyActive then .next (s.retire c c.w (some a) none)
      else if !s.engineFree c.b.core c.bi kind then .next s.notReady
      else guardTraps s c
        [c.tagCheck false tag.toNat, c.vaRange s false va 64, c.must (va % 64 == 0) Cause.rayDesc]
        (reach s c .load accs 64 <|
          let r := s.loadBytes c.b.core c.b.cls.val false ((span va 64).map fun x => s.locOf c .load x)
          let ws := (List.range 8).map (byteWord64 r.2.1)
          let len := 64 * bits (ws.getD 4 0) 31 0
          let inr := bits (ws.getD 2 0) 55 0
          let outr := bits (ws.getD 3 0) 55 0
          let ranges : List EngRange :=
            [⟨c.b.core, c.bi, false, false, inr, len⟩, ⟨c.b.core, c.bi, true, false, outr, len⟩]
          guardTraps s c [c.must (!r.2.2 && !rayDescBad ws) Cause.rayDesc] <|
            if !s.locksFit (realRanges ranges) then .next s.notReady
            else guardTraps s c
              [c.vaRange s false inr len, c.vaRange s false outr len, c.rangeCheck s ranges]
              (let req : EngReq :=
                { kind := kind, ctr := .cp, tag := tag.toNat, instr := instr, vals := ws, ranges := ranges, empty := len == 0 }
               .next ((r.1.enterEngine c req).retire c (c.engCounted r.1 req) (some a) none)))

/-- TRACE. -/
def execTrace (h : Hdr) (a : Operand) (tag : BitVec 6) (s : State) : Out :=
  issue s h fun c => rayIssue s c .ray (.trace h a tag) a tag

/-- MATEV. -/
def execMatev (h : Hdr) (a : Operand) (tag : BitVec 6) (s : State) : Out :=
  issue s h fun c => rayIssue s c .mat (.matev h a tag) a tag

/-! ## Records (R375, R376), STATUS of a hit record -/

namespace RaySt
def miss : Nat := 0
def hit : Nat := 1
def shader : Nat := 2
def lost : Nat := 3
def timeout : Nat := 4
def busy : Nat := 5
def badObj : Nat := 6
def badData : Nat := 7
def dead : Nat := 8
def absorbed : Nat := 9
end RaySt

/-- A ray's values: those of a ray record. -/
structure RayV where
  o : List Word := [0, 0, 0]
  d : List Word := [0, 0, 0]
  tmin : Word := 0
  tmax : Word := 0
  rad : List Word
  spread : Word
  width : Nat
  thru : List Nat
  bounce : Nat
  dead : Bool := false
  view : Nat
  rayid : Word
  deriving DecidableEq, Repr

/-- The upper and lower word of a 64-bit word, and their join. -/
def hiW (w : DWord) : Word := .ofNat 32 (bits w 63 32)
def loW (w : DWord) : Word := .ofNat 32 (bits w 31 0)
def joinW (h l : Word) : DWord := .ofNat 64 (h.toNat * 2 ^ 32 + l.toNat)
/-- Three packed FP16 channels. -/
def thruOf (w : DWord) : List Nat := [bits w 15 0, bits w 31 16, bits w 47 32]
def thruBits (t : List Nat) : Nat := t.getD 0 0 + t.getD 1 0 * 2 ^ 16 + t.getD 2 0 * 2 ^ 32
def vx (v : List Word) : Word := v.getD 0 0
def vy (v : List Word) : Word := v.getD 1 0
def vz (v : List Word) : Word := v.getD 2 0

/-- FP16 to FP32, and back with rounding. -/
def wide16 (v : Nat) : Word := .ofNat 32 (fp32.enc (fp16.dec v))
def to16 (w : Word) : Nat := fp16.enc (fp32.dec w.toNat)

/-- Read a ray record (R375). -/
def rayOf (ws : List DWord) : RayV :=
  let w := fun i => ws.getD i 0
  { o := [loW (w 0), hiW (w 0), loW (w 1)], d := [hiW (w 1), loW (w 2), hiW (w 2)], tmin := loW (w 3), tmax := hiW (w 3)
    rad := [hiW (w 4), loW (w 7), hiW (w 7)], spread := loW (w 4), width := bits (w 5) 63 48, thru := thruOf (w 5)
    bounce := bits (w 6) 47 40, dead := (w 6).getLsbD 39, view := bits (w 6) 38 32, rayid := loW (w 6) }

/-- A ray record (R375). -/
def RayV.words (r : RayV) : List DWord :=
  [joinW (vy r.o) (vx r.o), joinW (vx r.d) (vz r.o), joinW (vz r.d) (vy r.d), joinW r.tmax r.tmin,
   joinW (vx r.rad) r.spread, .ofNat 64 (r.width * 2 ^ 48 + thruBits r.thru),
   .ofNat 64 (r.bounce % 256 * 2 ^ 40 + r.dead.toNat * 2 ^ 39 + r.view * 2 ^ 32 + r.rayid.toNat),
   joinW (vz r.rad) (vy r.rad)]

/-- A record with DEAD = 1 (R377). -/
def RayV.deadWords (r : RayV) : List DWord :=
  RayV.words { r with o := [0, 0, 0], d := [0, 0, 0], tmin := 0, tmax := 0, dead := true }

/-- The cone width at a distance: SPREAD * T + WIDTH, rounded to FP16 (R376). -/
def RayV.widthAt (r : RayV) (t : Word) : Nat := to16 (fadd32 (fmul32 r.spread t) (wide16 r.width))

/-- A hit record (R376). -/
def RayV.hitWords (r : RayV) (status : Nat) (hit : Option RayHit) : List DWord :=
  let h := if status = RaySt.miss || status = RaySt.dead || status = RaySt.badData then none else hit
  let g := fun (f : RayHit → Nat) => (h.map f).getD 0
  [.ofNat 64 (status * 2 ^ 48 + r.bounce % 256 * 2 ^ 40 + g (fun x => x.back.toNat) * 2 ^ 39 + r.view * 2 ^ 32 + r.rayid.toNat),
   .ofNat 64 (g (fun x => x.b1.toNat) * 2 ^ 32 + g fun x => x.t.toNat),
   .ofNat 64 (g (fun x => x.leaf) % 2 ^ 32 * 2 ^ 32 + g fun x => x.b2.toNat),
   .ofNat 64 (to16 r.spread * 2 ^ 40 + g (fun x => x.mat) * 2 ^ 24 + g fun x => x.obj),
   joinW (vy r.d) (vx r.d), joinW (vx r.rad) (vz r.d), joinW (vz r.rad) (vy r.rad),
   .ofNat 64 ((match h with
     | some x => x.width
     | none => r.widthAt 0) * 2 ^ 48 + thruBits r.thru)]

/-- Read a hit record as MATEV takes it (R377): its status, its ray values and its hit. -/
def hitOf (ws : List DWord) : Nat × RayV × RayHit :=
  let w := fun i => ws.getD i 0
  (bits (w 0) 51 48,
   { d := [loW (w 4), hiW (w 4), loW (w 5)], tmax := 0x7F800000, rad := [hiW (w 5), loW (w 6), hiW (w 6)]
     spread := wide16 (bits (w 3) 55 40), width := bits (w 7) 63 48, thru := thruOf (w 7)
     bounce := bits (w 0) 47 40, view := bits (w 0) 38 32, rayid := loW (w 0) },
   { t := loW (w 1), b1 := hiW (w 1), b2 := loW (w 2), leaf := bits (w 2) 63 32, obj := bits (w 3) 23 0, mat := bits (w 3) 39 24
     back := (w 0).getLsbD 39, width := bits (w 7) 63 48 })

/-! ## Vectors (R374, R445) -/

def vmap2 (f : Word → Word → Word) (a b : List Word) : List Word := [f (vx a) (vx b), f (vy a) (vy b), f (vz a) (vz b)]
def vsub (a b : List Word) : List Word := vmap2 fsub32 a b
def vdot (a b : List Word) : Word :=
  fadd32 (fadd32 (fmul32 (vx a) (vx b)) (fmul32 (vy a) (vy b))) (fmul32 (vz a) (vz b))
def vcross (a b : List Word) : List Word :=
  [fsub32 (fmul32 (vy a) (vz b)) (fmul32 (vz a) (vy b)), fsub32 (fmul32 (vz a) (vx b)) (fmul32 (vx a) (vz b)),
   fsub32 (fmul32 (vx a) (vy b)) (fmul32 (vy a) (vx b))]
def vneg (a : List Word) : List Word := a.map fneg32
/-- k1 * a + k2 * b + k3 * c, component by component, from the left. -/
def vcomb (k1 : Word) (a : List Word) (k2 : Word) (b : List Word) (k3 : Word) (c : List Word) : List Word :=
  (List.range 3).map fun i =>
    fadd32 (fadd32 (fmul32 k1 (a.getD i 0)) (fmul32 k2 (b.getD i 0))) (fmul32 k3 (c.getD i 0))
def isNan32 (w : Word) : Bool := (fp32.dec w.toNat).isNan

/-! ## Traversal (R372-R374) -/

/-- Round a number into FP32 toward minus infinity, or toward plus infinity. -/
def roundDir32 (up : Bool) (x : FNum) : Word :=
  match x with
  | .fin neg m e =>
    if m = 0 then (if neg then 0x80000000 else 0)
    else
      let q := max fp32.emin (e + Nat.log2 m - fp32.mant)
      let n := if q ≤ e then m * 2 ^ (e - q).toNat else m / 2 ^ (q - e).toNat
      let exact := decide (q ≤ e) || m % 2 ^ (q - e).toNat == 0
      let away := up != neg
      let p := (q - fp32.emin).toNat * 2 ^ fp32.mant + (if exact || !away then n else n + 1)
      .ofNat 32 ((if neg then fp32.sign else 0)
        + (if fp32.maxPat < p then (if away then fp32.infPat else fp32.maxPat) else p))
  | x => .ofNat 32 (fp32.enc x)

/-- Word `k` of some bytes. -/
def byteWord32 (bs : List (Byte × Bool)) (k : Nat) : Word := .ofNat 32 (leNat (((bs.drop (4 * k)).take 4).map Prod.fst))
def byteAt (bs : List (Byte × Bool)) (k : Nat) : Nat := (bs.getD k (0, false)).1.toNat
def anyBad (bs : List (Byte × Bool)) : Bool := bs.any Prod.snd

/-- A bound of a child's box on an axis: ORIGIN + q * 2^E, exact and rounded once. -/
def boxBound (up : Bool) (origin : Word) (q : Nat) (ex : Int) : Word :=
  roundDir32 up ((fp32.dec origin.toNat).add (.fin false q ex))

/-- The rounded distances of a slab: none where it is empty or not a number (DEDUCED, log entry 18). -/
def slabAxis (lo hi o d : Word) : Option (Word × Word) :=
  if fzero32 d then (if fle32 lo o && fle32 o hi then some (0xFF800000, 0x7F800000) else none)
  else
    let q := fun b => ((fp32.dec (b : Word).toNat).add (fp32.dec o.toNat).neg).div (fp32.dec d.toNat)
    let a := q lo
    let b := q hi
    if a.isNan || b.isNan then none
    else if (b.cmp a).1 then some (roundDir32 false b, roundDir32 true a)
    else some (roundDir32 false a, roundDir32 true b)

/-- The entry distance of a box that the ray enters. -/
def slab (r : RayV) (lo hi : List Word) : Option Word :=
  let ax := (List.range 3).map fun i => slabAxis (lo.getD i 0) (hi.getD i 0) (r.o.getD i 0) (r.d.getD i 0)
  if ax.any Option.isNone then none
  else
    let ps := ax.filterMap id
    let tn := ps.foldl (fun m p => if flt32 m p.1 then p.1 else m) r.tmin
    let tf := ps.foldl (fun m p => if flt32 p.2 m then p.2 else m) r.tmax
    if fle32 tn tf then some tn else none

/-- The test of a triangle leaf at an offset (R373, R374). -/
def leafTest (r : RayV) (bs : List (Byte × Bool)) (off : Nat) : Option RayHit :=
  let w := byteWord32 bs
  let v0 := [w 0, w 1, w 2]
  let e1 := vsub [w 3, w 4, w 5] v0
  let e2 := vsub [w 6, w 7, w 8] v0
  let p := vcross r.d e2
  let det := vdot e1 p
  let q := vsub r.o v0
  let b1 := fdiv32 (vdot q p) det
  let qq := vcross q e1
  let b2 := fdiv32 (vdot r.d qq) det
  let t := fdiv32 (vdot e2 qq) det
  if fzero32 det then none
  else if fle32 0 b1 && fle32 0 b2 && fle32 (fadd32 b1 b2) 0x3F800000 && fle32 r.tmin t && fle32 t r.tmax
      && (!(w 9).getLsbD 24 || flt32 0 det) then
    some { t := t, b1 := b1, b2 := b2, leaf := off, obj := (w 9).toNat % 2 ^ 24, mat := (w 11).toNat % 2 ^ 16,
           prim := (w 10).toNat, back := flt32 det 0, width := r.widthAt t, v0 := v0, e1 := e1, e2 := e2 }
  else none

/-- A piece of traversal: a box node, or a run of leaves. -/
inductive Trav where
  | box (off : Nat)
  | leaves (off n : Nat)
  deriving DecidableEq, Repr

/-- Put a child where its entry distance belongs; ties stay in the order of the children. -/
def insertChild (x : Word × Trav) : List (Word × Trav) → List (Word × Trav)
  | [] => [x]
  | y :: t => if flt32 x.1 y.1 then x :: y :: t else y :: insertChild x t

/-- The children of a box node that the ray enters, nearest first; none for BADDATA (R372). -/
def nodeChildren (r : RayV) (bs : List (Byte × Bool)) : Option (List Trav) :=
  let w := byteWord32 bs
  let w3 := (w 3).toNat
  let finite := (List.range 3).all fun i => match fp32.dec (w i).toNat with
    | .fin .. => true
    | _ => false
  let kind := fun c => w3 / 2 ^ (24 + 2 * c) % 4
  let cnt := fun c => (w 14).toNat / 2 ^ (8 * c) % 256
  if !finite || (List.range 4).any (fun c => kind c == 3 || (kind c == 2 && cnt c == 0)) then none
  else
    let ex := fun i => (BitVec.ofNat 8 (w3 / 2 ^ (8 * i))).toInt
    let kids := (List.range 4).filterMap fun c =>
      if kind c = 0 then none
      else
        let lo := (List.range 3).map fun i => boxBound false (w i) (byteAt bs (16 + 6 * c + i)) (ex i)
        let hi := (List.range 3).map fun i => boxBound true (w i) (byteAt bs (19 + 6 * c + i) + 1) (ex i)
        let off := (w (10 + c)).toNat
        (slab r lo hi).map fun tn => (tn, if kind c = 1 then Trav.box off else .leaves off (cnt c))
    some ((kids.foldl (fun l x => insertChild x l) []).map Prod.snd)

/-- How a traversal ends: a hit or none, or BADDATA; and whether it met poison. -/
structure TravEnd where
  hit : Option RayHit
  bad : Bool := false
  poison : Bool
  deriving DecidableEq, Repr

/-- A hit is nearer, or as near with a lower leaf offset. -/
def nearer (h : RayHit) : Option RayHit → Bool
  | none => true
  | some b => flt32 h.t b.t || (fle32 h.t b.t && decide (h.leaf < b.leaf))

/-- Bytes of a structure of the hierarchy or tables; none where the address fails R10. -/
def State.rayRead (s : State) (i : Nat) (o : EngOp) (va n : Nat) : Eng (Option (List (Byte × Bool))) :=
  if !s.rangeOk va n then .ok s none else (s.engRead i o (span va n)).bind fun s bs => .ok s (some bs)

/-- The traversal of a hierarchy (R374): `todo` is what stands to be visited, in order. -/
def State.traverse (s : State) (i : Nat) (o : EngOp) (r : RayV) : Nat → List Trav → Option RayHit → Bool → Eng TravEnd
  | 0, _, _, _ => .wait s
  | _, [], best, p => .ok s ⟨best, false, p⟩
  | fuel + 1, .box off :: todo, best, p =>
    (s.rayRead i o (o.rayBvh + 16 * off) 64).bind fun s bs =>
      match bs with
      | none => .ok s ⟨none, true, p⟩
      | some bs =>
        match nodeChildren r bs with
        | none => .ok s ⟨none, true, p || anyBad bs⟩
        | some kids => s.traverse i o r fuel (kids ++ todo) best (p || anyBad bs)
  | fuel + 1, .leaves off n :: todo, best, p =>
    if n = 0 then s.traverse i o r fuel todo best p
    else (s.rayRead i o (o.rayBvh + 16 * off) 48).bind fun s bs =>
      match bs with
      | none => .ok s ⟨none, true, p⟩
      | some bs =>
        let p := p || anyBad bs
        match leafTest r bs off with
        | some h =>
          if o.rayAny then .ok s ⟨some h, false, p⟩
          else s.traverse i o r fuel (.leaves (off + 3) (n - 1) :: todo) (if nearer h best then some h else best) p
        | none => s.traverse i o r fuel (.leaves (off + 3) (n - 1) :: todo) best p

/-- The nodes and leaves one traversal may visit before the operation counts as never ending. -/
def travFuel : Nat := 2 ^ 32

/-! ## The material step (R378, R379) -/

/-- The hash h(j). -/
def rayHash (seed rayid : Word) (bounce j : Nat) : Word :=
  let x : Word := seed ^^^ (rayid * 0x9E3779B9) ^^^ (.ofNat 32 (bounce * 2 ^ 24)) ^^^ (.ofNat 32 j)
  let x := x ^^^ (x >>> 16)
  let x := x * 0x7FEB352D
  let x := x ^^^ (x >>> 15)
  let x := x * 0x846CA68B
  let x := x ^^^ (x >>> 16)
  fint32 ((x >>> 8).toNat : Int) (-24)

/-- The level of a cone width: min(MAXLVL, max(0, n)) with n the greatest integer whose power of two it reaches; none for a
NaN. -/
def coneLevel (maxlvl : Nat) (w : Word) : Option Nat :=
  match fp32.dec w.toNat with
  | .nan => none
  | .inf neg => some (if neg then 0 else maxlvl)
  | .fin neg m e => some (if neg || m = 0 then 0 else min maxlvl (e + Nat.log2 m).toNat)

/-- floor(u / 2^l); none where u is not finite. -/
def texelFloor (l : Nat) (u : Word) : Option Int :=
  match fp32.dec u.toNat with
  | .fin neg m e => some (floorOf neg m (e - l))
  | _ => none

/-- The lookup that a hit asks for; none for BADDATA (R378). -/
def materialKey (h : RayHit) (m0 m1 m2 m3 : DWord) (uv : Nat → Word) : Option RayMat :=
  let mix := fun k => fadd32 (fadd32 (uv k) (fmul32 h.b1 (fsub32 (uv (2 + k)) (uv k))))
    (fmul32 h.b2 (fsub32 (uv (4 + k)) (uv k)))
  match coneLevel (bits m1 31 28) (fmul32 (wide16 h.width) (hiW m1)) with
  | none => none
  | some l =>
    match texelFloor l (mix 0), texelFloor l (mix 1) with
    | some tu, some tv =>
      some { key := h.obj * 2 ^ 32 + l * 2 ^ 28 + (tu / 8 % 4096).toNat * 2 ^ 16 + (tv / 8 % 4096).toNat * 2 ^ 4 + bits m0 59 56
             off := 16 * (8 * (tv % 8).toNat + (tu % 8).toNat), layers := bits m0 62 60
             ior := loW m2, coatIor := hiW m2, coatRough := hiW m3 }
    | _, _ => none

/-- How the shading of a hit ends: absorbed, or the next ray; with the ray's values as it leaves them. -/
structure Shaded where
  v : RayV
  gone : Bool
  deriving DecidableEq, Repr

def one : Word := 0x3F800000
def recipSqrt (y : Word) : Word := fdiv32 one (fsqrtVal y)

/-- The frame of a normal. -/
def frameOf (n : List Word) : List Word × List Word :=
  if flt32 (vz n) 0xBF7FFFFE then ([0, 0xBF800000, 0], [0xBF800000, 0, 0])
  else
    let c := fdiv32 one (fadd32 one (vz n))
    let g := fmul32 (fmul32 (fneg32 (vx n)) (vy n)) c
    ([fsub32 one (fmul32 (fmul32 (vx n) (vx n)) c), g, fneg32 (vx n)],
     [g, fsub32 one (fmul32 (fmul32 (vy n) (vy n)) c), fneg32 (vy n)])

/-- A square, and the fifth power (R445). -/
def fsq (x : Word) : Word := fmul32 x x
def fpow5 (x : Word) : Word := fmul32 (fmul32 (fmul32 (fmul32 x x) x) x) x

/-- The direction and throughput of a specular or coat reflection; none when it is absorbed. -/
def reflect (d n t b : List Word) (a eta h1 phi : Word) (thru : List Word) : Option (List Word × List Word) :=
  let cosT := recipSqrt (fadd32 one (fdiv32 (fmul32 (fmul32 a a) h1) (fsub32 one h1)))
  let sinT := fsqrtVal (fsub32 one (fmul32 cosT cosT))
  let m := vcomb (fmul32 sinT (trigVal true Config.fcos phi)) t (fmul32 sinT (trigVal false Config.fsin phi)) b cosT n
  let k := fmul32 0x40000000 (vdot d m)
  let out := (List.range 3).map fun i => fsub32 (d.getD i 0) (fmul32 k (m.getD i 0))
  if fle32 (vdot out n) 0 then none
  else
    let f0 := fsq (fdiv32 (fsub32 eta one) (fadd32 eta one))
    let f := fadd32 f0 (fmul32 (fsub32 one f0) (fpow5 (fsub32 one (vdot out m))))
    some (out, thru.map fun x => fmul32 x f)

/-- The shading of a hit with its texel's eight FP16 values (R378). -/
def shade (r : RayV) (h : RayHit) (m : RayMat) (seed : Word) (tx : List Nat) : Shaded :=
  let f := fun k => wide16 (tx.getD k 0)
  let albedo := [f 0, f 1, f 2]
  let rough := f 4
  let sp := f 5
  let kc := f 6
  let em := f 7
  let thru := r.thru.map wide16
  let rad := (List.range 3).map fun i =>
    fadd32 (r.rad.getD i 0) (fmul32 (fmul32 (thru.getD i 0) (albedo.getD i 0)) em)
  let r := { r with rad := rad }
  let layer := fun i (w : Word) => if m.layers.testBit i then w else 0
  let wd := layer 0 (fmul32 (fsub32 one sp) (fsub32 one kc))
  let ws := layer 1 (fmul32 sp (fsub32 one kc))
  let wc := layer 2 kc
  let total := fadd32 (fadd32 wd ws) wc
  if fzero32 total then ⟨r, true⟩
  else
    let cr := vcross h.e1 h.e2
    let len := fsqrtVal (vdot cr cr)
    let n := cr.map fun x => fdiv32 x len
    let n := if flt32 0 (vdot n r.d) then vneg n else n
    let tb := frameOf n
    let hash := rayHash seed r.rayid r.bounce
    let x := fmul32 (hash 0) total
    let phi := fmul32 0x40C90FDB (hash 2)
    let next : Option (List Word × List Word) :=
      if flt32 x wd then
        let rr := fsqrtVal (hash 1)
        some (vcomb (fmul32 rr (trigVal true Config.fcos phi)) tb.1 (fmul32 rr (trigVal false Config.fsin phi)) tb.2
            (fsqrtVal (fsub32 one (hash 1))) n,
          vmap2 fmul32 thru albedo)
      else if flt32 x (fadd32 wd ws) then reflect r.d n tb.1 tb.2 (fmul32 rough rough) m.ior (hash 1) phi thru
      else reflect r.d n tb.1 tb.2 (fmul32 m.coatRough m.coatRough) m.coatIor (hash 1) phi thru
    match next with
    | none => ⟨r, true⟩
    | some (out, thru) =>
      let p := (List.range 3).map fun i =>
        fadd32 (fadd32 (h.v0.getD i 0) (fmul32 h.b1 (h.e1.getD i 0))) (fmul32 h.b2 (h.e2.getD i 0))
      let ab := fun (w : Word) => w &&& 0x7FFFFFFF
      let big := fmax32 (fmax32 (ab (vx p)) (ab (vy p))) (ab (vz p))
      let scale := fadd32 one big
      let org := (List.range 3).map fun i =>
        fadd32 (p.getD i 0) (fmul32 (fmul32 (n.getD i 0) 0x37800000) scale)
      ⟨{ r with o := org, d := out, tmin := 0, tmax := 0x7F800000, width := h.width, thru := thru.map to16,
                bounce := (r.bounce + 1) % 256 }, false⟩

/-! ## One ray -/

/-- Whether an operation is a MATEV. -/
def isMatev (o : EngOp) : Bool := match o.instr with
  | .matev .. => true
  | _ => false

/-- A ray that ends with a status: its output record is formed (R376, R377). -/
def Ray.stop (y : Ray) (o : EngOp) (status : Nat) : Ray :=
  let r := rayOf y.words
  { y with lifeR := .running, got := none, mat := none
           out := if isMatev o then r.deadWords else r.hitWords status y.hit }

/-- A record is begun (R376, R377): a dead one ends at once. -/
def beginRay (o : EngOp) (idx slot : Nat) (bs : List (Byte × Bool)) : Ray :=
  let ws := (List.range 8).map (byteWord64 (bs.map Prod.fst))
  let y : Ray := { idx := idx, slot := slot, words := ws, poison := anyBad bs }
  if isMatev o then
    let x := hitOf ws
    let y := { y with words := x.2.1.words }
    if x.1 = RaySt.hit then { y with hit := some x.2.2 } else y.stop o x.1
  else if (rayOf ws).dead then y.stop o RaySt.dead
  else y

/-- The closest hit of a ray, or its end (R374, R377). -/
def State.rayTrace (s : State) (i : Nat) (o : EngOp) (y : Ray) : Eng Ray :=
  let r := rayOf y.words
  if (r.o ++ r.d ++ [r.tmin, r.tmax]).any isNan32 then .ok s (y.stop o RaySt.badData)
  else (s.traverse i o r travFuel [.box 0] none false).bind fun s e =>
    let y := { y with poison := y.poison || e.poison, hit := e.hit }
    if e.bad then .ok s (y.stop o RaySt.badData)
    else if e.hit.isNone then .ok s (y.stop o RaySt.miss)
    else if r.bounce == o.rayBounces || o.rayAny then .ok s (y.stop o RaySt.hit)
    else .ok s y

/-- The leaf of a MATEV's hit: its vertices and PRIM (R377). -/
def State.rayLeaf (s : State) (i : Nat) (o : EngOp) (h : RayHit) : Eng (Option (RayHit × Bool)) :=
  if h.v0 != [] then .ok s (some (h, false))
  else (s.rayRead i o (o.rayBvh + 16 * h.leaf) 48).bind fun s bs =>
    match bs with
    | none => .ok s none
    | some bs =>
      let w := byteWord32 bs
      let v0 := [w 0, w 1, w 2]
      .ok s (some ({ h with v0 := v0, e1 := vsub [w 3, w 4, w 5] v0, e2 := vsub [w 6, w 7, w 8] v0, prim := (w 10).toNat },
        anyBad bs))

/-- The material entry and the UV entry of a hit: the key of its lookup, or the ray's end (R378). -/
def State.rayMaterial (s : State) (i : Nat) (o : EngOp) (y : Ray) (h : RayHit) : Eng Ray :=
  (s.rayLeaf i o h).bind fun s lf =>
    match lf with
    | none => .ok s (y.stop o RaySt.badData)
    | some (h, bad) =>
      let y := { y with hit := some h, poison := y.poison || bad }
      (s.rayRead i o (o.rayMtab + 64 * h.mat) 64).bind fun s me =>
        match me with
        | none => .ok s (y.stop o RaySt.badData)
        | some me =>
          let y := { y with poison := y.poison || anyBad me }
          let m := byteWord64 (me.map Prod.fst)
          if (m 0).getLsbD 63 then .ok s (y.stop o RaySt.shader)
          else (s.rayRead i o (bits (m 0) 55 0 + 32 * h.prim) 32).bind fun s uv =>
            match uv with
            | none => .ok s (y.stop o RaySt.badData)
            | some uv =>
              let y := { y with poison := y.poison || anyBad uv }
              match materialKey h (m 0) (m 1) (m 2) (m 3) (byteWord32 uv) with
              | none => .ok s (y.stop o RaySt.badData)
              | some k => .ok s { y with mat := some k }

/-- The texel of a payload, and the shading (R378). -/
def State.rayTexel (s : State) (o : EngOp) (y : Ray) (h : RayHit) (m : RayMat) (pay sz : Nat) : State × Ray :=
  let off := 256 * pay + m.off
  if 256 * (sz + 1) < m.off + 16 then (s, y.stop o RaySt.badData)
  else if !s.landingOk (s.opSpace o).vm false off then (s, y.stop o RaySt.lost)
  else
    let ks := (span off 16).map s.heapKey
    let s := (s.l1SendSectors o.core (s.opCls o) ks).l2TouchAll ks (s.opCls o) false
    let tx := (List.range 8).map fun k => leNat (s.bytesAt ((ks.drop (2 * k)).take 2))
    let y := { y with poison := y.poison || ks.any s.secPoison }
    let r := shade (rayOf y.words) h m o.raySeed tx
    let y := { y with words := r.v.words, got := none, mat := none }
    if r.gone then (s, y.stop o RaySt.absorbed)
    else if isMatev o then (s, { y with out := r.v.words })
    else (s, { y with hit := none })

/-- What a lookup or a wake brings a ray (R378). -/
def State.rayResult (s : State) (o : EngOp) (y : Ray) (h : RayHit) (m : RayMat) (code pay sz : Nat) : State × Ray :=
  if code == Code.hit then s.rayTexel o y h m pay sz
  else if code == Code.timeout then (s, y.stop o RaySt.timeout)
  else if code == Code.busy then (s, y.stop o RaySt.busy)
  else (s, y.stop o RaySt.lost)

/-- A fault of the object table's translation, an access of the Landing's (R34: engine 24). -/
def State.objFault (s : State) (i : Nat) (o : EngOp) (sp : Space) (va kind ptepa : Nat) (sys : Bool) : State :=
  let w := s.wave o.wave
  let r := s.raiseFault o.core sp va .engRead kind ptepa sys w.part.val w.wslot.val 24
  r.1.updOp i fun o => { o with fault := some r.2, faultVa := va }

/-- The lookup of a ray (R378): it goes on, parks, will look up again, or ends. -/
def State.rayLookup (s : State) (i : Nat) (o : EngOp) (y : Ray) (h : RayHit) (m : RayMat) : Eng Ray :=
  let vm := (s.opSpace o).vm
  let sp := s.objSpace vm
  let va := s.objVa vm h.obj
  if s.objCount vm ≤ h.obj || landingVa ≤ va then .ok s (y.stop o RaySt.badObj)
  else match s.place (tlbEngine o.core o.engine) (s.opCls o) sp .engRead va with
    | .fault kind ptepa sys => .fault (s.objFault i o sp va kind ptepa sys)
    | .pri s' => .wait s'
    | .ok s l =>
      let e := s.objRead (s.opCls o) (dieOfObj h.obj) l.key
      if !objExists e.2 then .ok e.1 (y.stop o RaySt.badObj)
      else match e.1.landLookup ⟨vm, m.key, e.2, rayWatcher (clusterOf o.core) y.slot⟩ false with
        | .wait s' => .wait s'
        | .served s' res =>
          if res.code == Code.miss || res.code == Code.flight then
            if res.noh then .ok s' { y with lifeR := .again, since := s.clk }
            else .ok s' { y with lifeR := .parked, entry := handleIx res.handle, since := s.clk }
          else
            let x := s'.rayResult o y h m res.code res.pay res.sz
            .ok x.1 x.2

/-- The next part of a running ray that has no output record yet. -/
def State.rayPart (s : State) (i : Nat) (o : EngOp) (y : Ray) : Eng Ray :=
  match y.hit, y.mat, y.got with
  | some h, some m, some (code, pay, sz) =>
    let x := s.rayResult o y h m code pay sz
    .ok x.1 x.2
  | some h, some m, none => s.rayLookup i o y h m
  | some h, none, _ => s.rayMaterial i o y h
  | none, _, _ => s.rayTrace i o y

/-- Write a ray's output record. -/
def State.rayWrite (s : State) (i : Nat) (o : EngOp) (y : Ray) : Eng (List EngWrite) :=
  (s.engDest i o false (o.rayOut y.idx) 64).bind fun s ts =>
    .ok s (engWrites ts ((y.out.flatMap fun w => leBytes 8 w.toNat).map fun b => (b, y.poison)))

/-! ## Order and slots (R380, R446) -/

/-- floor(x / 16) mod 16 of an origin's component, 0 where it is not finite. -/
def cellOf (x : Word) : Nat :=
  match fp32.dec x.toNat with
  | .fin neg m e => (floorOf neg m (e - 4) % 16).toNat
  | _ => 0

/-- The sort key of a record. -/
def sortKey (r : RayV) : Nat :=
  let oct := (List.range 3).foldl (fun a i => if (r.d.getD i 0).getLsbD 31 then a + 2 ^ i else a) 0
  let mort := (List.range 12).foldl (fun a b => if (cellOf (r.o.getD (b % 3) 0)).testBit (b / 3) then a + 2 ^ b else a) 0
  r.view * 2 ^ 15 + oct * 2 ^ 12 + mort

/-- Put a record behind those of its key. -/
def insertKey (x : Nat × Nat) : List (Nat × Nat) → List (Nat × Nat)
  | [] => [x]
  | y :: t => if x.1 < y.1 then x :: y :: t else y :: insertKey x t

/-- The order of the batch that begins at a record. -/
def State.rayBatch (s : State) (i : Nat) (o : EngOp) (first n : Nat) : Eng (List Nat) :=
  (s.engRead i o (span (o.rayIn first) (64 * n))).bind fun s bs =>
    let keys := (List.range n).map fun k =>
      (sortKey (rayOf ((List.range 8).map (byteWord64 (((bs.drop (64 * k)).take 64).map Prod.fst)))), first + k)
    .ok s ((keys.foldl (fun l x => insertKey x l) []).map Prod.snd)

/-- The slots of a cluster's ray unit in use. -/
def State.raySlots (s : State) (cl : Nat) : List Nat :=
  (s.ops.filter fun o => o.life == .running && !o.saved && (o.engine == 19 || o.engine == 20) && clusterOf o.core == cl).flatMap fun o =>
    o.rays.map Ray.slot

def State.freeRaySlot (s : State) (cl : Nat) : Option Nat :=
  let used := s.raySlots cl
  if used.length < 4096 then (List.range (used.length + 1)).find? fun k => !used.contains k else none

/-! ## The steps of an operation -/

/-- Take how a part ended. -/
def Eng.take {α : Type} (x : Eng α) (s : State) (i : Nat) (f : State → α → Out) : Out :=
  match x with
  | .ok s' a => f s' a
  | .more s' => .next s'
  | .fault s' => .next s'
  | .wait s' => waited s s'
  | .fail s' e => .next (s'.updOp i fun o => { o with failed := some e })

/-- Replace a ray of an operation. -/
def State.setRay (s : State) (i : Nat) (y : Ray) : State :=
  s.updOp i fun o => { o with rays := o.rays.map fun z => if z.idx == y.idx then y else z }

/-- One step of a running ray. -/
def State.stepRay (s : State) (i : Nat) (o : EngOp) (y : Ray) : Out :=
  if y.out != [] then
    (s.rayWrite i o y).take s i fun s ws =>
      .next ((s.doWrites o ws).updOp i fun o => { o with rays := o.rays.filter fun z => z.idx != y.idx })
  else (s.rayPart i o y).take s i fun s y => .next (s.setRay i y)

/-- Begin the next record of an operation in a free slot: in INREC order, or for a TRACE with SORT in that of R380 (R337, R446). -/
def State.stepBegin (s : State) (i : Nat) (o : EngOp) (slot : Nat) : Out :=
  match o.order with
  | idx :: rest =>
    (s.engRead i o (span (o.rayIn idx) 64)).take s i fun s bs =>
      .next (s.updOp i fun o => { o with order := rest, rays := o.rays ++ [beginRay o idx slot bs] })
  | [] =>
    if o.raySort && o.engine == 19 then
      let n := min 1024 (o.rayCount - o.pair)
      (s.rayBatch i o o.pair n).take s i fun s l => .next (s.updOp i fun o => { o with order := l, pair := o.pair + n })
    else .next (s.updOp i fun o => { o with order := [o.pair], pair := o.pair + 1 })

/-- One step of a TRACE or MATEV: a ray goes on, or the next one begins; with every record written the operation ends. -/
def State.stepRays (s : State) (i : Nat) (o : EngOp) : Out :=
  let fresh := o.order != [] || decide (o.pair < o.rayCount)
  let run := (o.rays.filter fun y => y.lifeR == .running).map some
  let slot := s.freeRaySlot (clusterOf o.core)
  let opts := run ++ (if fresh && slot.isSome then [none] else [])
  if !fresh && o.rays == [] then .next (s.finishOp i o none)
  else
    let k := if opts.length ≤ 1 then 0 else Config.pickRay s.choice % opts.length
    match opts[k]? with
    | none => .fault .eventCannotOccur
    | some (some y) => s.stepRay i o y
    | some none => s.stepBegin i o (slot.getD 0)

/-! ## Timeouts and further lookups -/

/-- A ray of an operation that goes on. -/
def State.rayAt (s : State) (op ray : Nat) : Option (EngOp × Ray) :=
  match s.ops[op]? with
  | none => none
  | some o => if s.opRuns o then (o.rays.find? fun y => y.idx == ray).map fun y => (o, y) else none

/-- RAY_TIMEOUT (R97): a ray parked for RAYTMO * 1,024 clk leaves its watcher slot and ends with TIMEOUT. -/
def execRayTimeout (op ray : Nat) (s : State) : Out :=
  match s.rayAt op ray with
  | none => .fault .eventCannotOccur
  | some (o, y) =>
    if y.lifeR != .parked || s.lreg.raytmo == 0 || decide (s.clk < y.since + s.lreg.raytmo * 1024) then .fault .eventCannotOccur
    else
      let e := s.tagAt y.entry
      let s := s.setTag y.entry { e with watch := dropWatch e.watch (rayWatcher (clusterOf o.core) y.slot) }
      .next (s.setRay op (y.stop o RaySt.timeout))

/-- RAY_RELOOKUP (R378): a ray that was given NOH looks up again after 1,024 clk. -/
def execRayRelookup (op ray : Nat) (s : State) : Out :=
  match s.rayAt op ray with
  | none => .fault .eventCannotOccur
  | some (_, y) =>
    if y.lifeR != .again || decide (s.clk < y.since + 1024) then .fault .eventCannotOccur
    else .next (s.setRay op { y with lifeR := .running })

end Sys2Proof.Machine
end

