-- ==== Sys2Proof/Machine/Faults.lean ====
section
/-! DEFINITION. The fault queue and the driver's answers (R33-R36), the walks that stalled waves wait for (R17, R28), host pages
(R38), and invalidation (R30, R31). -/
namespace Sys2Proof.Machine

/-! ## Registers in storage -/

/-- A message-signalled interrupt of a function (R404). -/
def State.raiseMsi (s : State) (fn vec : Nat) : State := { s with msi := s.msi ++ [(fn, vec)] }

/-- A region of local HBM that lies wholly in present storage (R18, R35, R72). -/
def State.regionPresent (s : State) (base len : Nat) : Bool :=
  decide (base + len ≤ 2 ^ 40)
    && (List.range (len / 4096 + 1)).all fun i => 4096 * i ≥ len || s.present (hbmKey false (base + 4096 * i))

/-! ## Posting (R33-R35) -/

/-- LOG2N of the fault queue admits posting (R33). -/
def Xlat.posting (x : Xlat) : Bool := decide (6 ≤ x.fqLog2) && decide (x.fqLog2 ≤ 16)

/-- The fault ring lies wholly in present local HBM (R35). -/
def State.ringPresent (s : State) : Bool := s.regionPresent s.x.fqBase (32 * 2 ^ s.x.fqLog2)

/-- BADRING (R33): records are held because the ring is not wholly present. -/
def State.badRing' (s : State) : Bool :=
  s.x.posting && !s.ringPresent && s.x.faults.any fun r => r.id.isNone

/-- The ring has no free slot: TAIL + 1 = HEAD modulo its size (R35). -/
def ringFull (log2n : Nat) (head tail : Word) : Bool := (tail.toNat + 1) % 2 ^ log2n == head.toNat % 2 ^ log2n

/-- DIE, CLUSTER and CORE of a record; a rasteriser, which has no core, is named by its die alone (R34; DEDUCED, log entry 50). -/
def FaultRec.place (r : FaultRec) : Nat :=
  if r.core < 160 then dieOf r.core * 32 + clusterOf r.core % 5 * 4 + r.core % 4 else (r.core - 160) / 2 * 32

/-- The 32 bytes of a fault record (R34). -/
def FaultRec.words (r : FaultRec) (id : Word) : List DWord :=
  [.ofNat 64 (id.toNat * 2 ^ 32 + r.space.vm * 2 ^ 27 + (if r.space.ctx then 0 else r.space.asid.toNat) * 2 ^ 11 + r.kind * 2 ^ 7
      + r.access.code * 2 ^ 4 + r.space.ctx.toNat * 2 ^ 3 + r.sys.toNat * 2 ^ 2 + 1),
    .ofNat 64 (r.va % 2 ^ 56),
    .ofNat 64 (r.place * 2 ^ 56 + r.part * 2 ^ 51 + r.wslot * 2 ^ 49 + r.engine * 2 ^ 43),
    if 5 ≤ r.kind && r.kind ≤ 7 then 0 else .ofNat 64 (r.ptepa % 2 ^ 52)]

/-- FAULT_RECORD_POST (R35): the oldest held record is written to the ring with the next ID, TAIL advances over it, and vector 0
of the physical function is raised.  BASE is an interleaved PA, and TAIL counts on over its 32 bits, taken modulo 2^LOG2N for the slot
and the full test (DEDUCED, log entry 50). -/
def execFaultRecordPost (s : State) : Out :=
  match s.x.faults.find? fun r => r.id.isNone with
  | none => .fault .eventCannotOccur
  | some r =>
    if !s.x.posting || !s.ringPresent || ringFull s.x.fqLog2 s.x.fqHead s.x.fqTail then .fault .eventCannotOccur
    else
      let id := s.x.nextId
      let k := hbmKey false (s.x.fqBase + 32 * (s.x.fqTail.toNat % 2 ^ s.x.fqLog2))
      let s1 := s.homeWrite 3 (writesFrom k (wordsBytes (r.words id)))
      .next ({ s1 with x := { s1.x with
        faults := s1.x.faults.map fun (q : FaultRec) => if q.serial == r.serial then { q with id := some id } else q
        fqTail := s1.x.fqTail + 1, nextId := id + 1 } }.raiseMsi 0 0)

/-! ## Answers (R35, R36) -/

/-- The posted record of an ID. -/
def State.faultOf (s : State) (id : Word) : Option FaultRec := s.x.faults.find? fun r => r.id == some id

/-- The host page a VA's leaf names, by the page tables as they stand. -/
def State.hostPageOf (s : State) (cl : Nat) (sp : Space) (va : Nat) : Option Nat :=
  match s.walk cl sp .load va with
  | .leaf _ e log2 => if e.getLsbD 12 then some ((pteAddr e + va % 2 ^ log2) / 4096) else none
  | .fault .. => none

/-- A record leaves the list; a refused host page may be asked for again. -/
def State.dropFault (s : State) (r : FaultRec) : State :=
  let page := if r.kind = Kind.host then s.hostPageOf (clusterOf r.core) r.space r.va else none
  { s with x := { s.x with
    faults := s.x.faults.filter fun q => q.serial != r.serial
    pri := s.x.pri.filter fun q => !(q.failed && page == some q.page) } }

/-- Every access that waits on a record goes back to translation (R35). -/
def State.retryAll (s : State) (n : Nat) : State :=
  { s with
    waves := s.waves.map fun w =>
      let w := { w with stalls := w.stalls.filter fun st => st.fault != some n }
      if w.ferryFault == some n then { w with ferryFault := none, fwait := false } else w
    ops := s.ops.map fun o => if o.fault == some n then { o with fault := none } else o
    blocks := s.blocks.map fun b => if b.saveFault == some n then { b with saveFault := none } else b
    grids := s.grids.map fun g => { g with rasterFault := g.rasterFault.filter fun f => f.2 != n } }

/-- FAULTRESP_RETRY (R35). -/
def execFaultrespRetry (id : Word) (s : State) : Out :=
  match s.faultOf id with
  | none => .next s
  | some r => .next ((s.dropFault r).retryAll r.serial)

/-- DETAIL of MEMORY_FAULT: the kind and the VA (R396). -/
def FaultRec.detail (r : FaultRec) : DWord := .ofNat 64 (r.kind * 2 ^ 56 + r.va % 2 ^ 56)

/-- A wave's cancelled access (R36): a fetch traps at once; an access of an instruction traps when the instruction issues again. -/
def State.cancelWave (s : State) (r : FaultRec) (wi : Nat) : State :=
  let w := s.wave wi
  match w.stalls.find? fun st => st.fault == some r.serial with
  | some st =>
    if st.access == .fetch then (s.setWave wi { w with stalls := [] }).earlyTrap wi st.slotB Cause.memoryFault r.detail 0
    else s.setWave wi { w with stalls := [], cancel := some (st.slotB, st.va, r.detail) }
  | none => s

/-- The blocks a cancel kills (R36): those whose Ferry or whose save waits on the record, and those of a grid whose rasteriser
does (R369), each with its cause. -/
def State.cancelKills (s : State) (n : Nat) : List (Nat × Byte) :=
  ((List.range s.waves.length).filterMap fun i =>
      if (s.wave i).ferryFault == some n then some ((s.wave i).block, Cause.windowSpillFault) else none)
    ++ ((List.range s.blocks.length).filterMap fun i =>
      if (s.block i).saveFault == some n then some (i, Cause.contextSaveFault) else none)
    ++ ((List.range s.blocks.length).filterMap fun i =>
      if (s.grid (s.block i).grid).rasterFault.any (fun f => f.2 == n) then some (i, Cause.killed) else none)

/-- The grids a cancel kills: those whose rasteriser waits on the record (R369). -/
def State.cancelGrids (s : State) (n : Nat) : List Nat :=
  (List.range s.grids.length).filter fun i => (s.grid i).rasterFault.any fun f => f.2 == n

/-- A cancelled engine operation fails with MEMORY at the VA of its own access (R140, R145). -/
def cancelOp (r : FaultRec) (o : EngOp) : EngOp :=
  if o.fault == some r.serial then { o with fault := none, failed := some (errOf o TagCause.memory r.kind o.faultVa) } else o

/-- FAULTRESP_CANCEL (R36). -/
def execFaultrespCancel (id : Word) (s : State) : Out :=
  match s.faultOf id with
  | none => .next s
  | some r =>
    let kills := s.cancelKills r.serial
    let grids := s.cancelGrids r.serial
    let s := s.dropFault r
    let s := { s with ops := s.ops.map (cancelOp r) }
    let s := (List.range s.waves.length).foldl (fun s i => s.cancelWave r i) s
    .next (grids.foldl State.killGrid (kills.foldl (fun s k => s.kill k.1 k.2) s))

/-! ## Walks (R17, R28) -/

/-- The engine number of a record for a wave's access: the ray and texture unit for the reads of a descriptor. -/
def stallEngine (a : Access) : Nat :=
  match a with
  | .engRead | .engWrite => 24
  | _ => 0

/-- The missing pages that a core's waves wait for on fault records; with those under way a core tracks at most 64 (R28). -/
def State.faultedPages (s : State) (core : Nat) : List (Nat × Nat) :=
  ((s.waves.filter fun w => (s.block w.block).core == core).flatMap fun w =>
    (w.stalls.filter fun st => st.fault.isSome).map fun st => (st.space.vm * 2 ^ 17 + st.space.asid.toNat * 2 + st.space.ctx.toNat, st.va / 65536)).eraseDups

/-- A tracker of the core is free for a page, or the page has one (R28). -/
def State.tracked (s : State) (core : Nat) (st : Stall) : Bool :=
  let ps := s.faultedPages core
  decide (ps.length < 64) || ps.contains (st.space.vm * 2 ^ 17 + st.space.asid.toNat * 2 + st.space.ctx.toNat, st.va / 65536)

/-- The missing page of a wave that is walked next: one that waits on no record and has a tracker, chosen freely (R28; DESIGN CHOICE,
log entry 6). -/
def State.walkNext (s : State) (wi : Nat) : Option Stall :=
  let l := (s.wave wi).stalls.filter fun st => st.fault.isNone && s.tracked (s.block (s.wave wi).block).core st
  l[Config.pickWalk s.choice l.length % l.length]?

/-- TRANSLATION_WALK_DONE (R17, R28): the walk of a missing page that a stalled wave waits for ends; the wave has one page less to wait
for, waits for a host page, or waits on a fault record. -/
def execTranslationWalkDone (wave : Nat) (s : State) : Out :=
  let w := s.wave wave
  let b := s.block w.block
  match s.walkNext wave with
  | none => .fault .eventCannotOccur
  | some st =>
    if w.life != .running || b.life != .resident || b.halted then .fault .eventCannotOccur
    else
      match s.fillWalk (stallUnit b.core st.access) b.cls.val st.space st.access st.va with
      | .ok s' => heldToSlot s b.cls.val (.next (s'.updWave wave fun w => { w with stalls := w.stalls.filter fun x => x != st }))
      | .fault kind ptepa sys =>
        let r := s.raiseFault b.core st.space st.va st.access kind ptepa sys w.part.val w.wslot.val (stallEngine st.access)
        .next (r.1.updWave wave fun w =>
          { w with stalls := w.stalls.map fun x => if x = st then { st with fault := some r.2 } else x })
      | .pri s' => waited s s'

/-- PRI_RESPONSE (R38): a success names the host page and lets the accesses be translated again; any other answer makes them
meet a HOST fault. -/
def execPriResponse (idx : Nat) (success : Bool) (page : BitVec 40) (s : State) : Out :=
  match s.x.pri[idx]? with
  | none => .fault .eventCannotOccur
  | some r =>
    if r.failed then .fault .eventCannotOccur
    else if success then
      .next { s with x := { s.x with pri := s.x.pri.eraseIdx idx, hostPages := Sparse.put r.page page.toNat s.x.hostPages } }
    else .next { s with x := { s.x with pri := s.x.pri.set idx { r with failed := true } } }

/-! ## Invalidation (R30, R31) -/

/-- A command: it sets ERR alone while BUSY or with a reserved scope or VM, else BUSY until it is carried out (R30, R31).  TLBINVVA is
read as the command is accepted (DEDUCED, log entry 50). -/
def State.tlbCommand (s : State) (scope vm : Nat) (asid : BitVec 16) (pages : Word) : State :=
  if s.x.invBusy || 5 ≤ scope || 17 ≤ vm then { s with x := { s.x with invErr := true } }
  else { s with x := { s.x with
    invBusy := true
    invAt := s.x.invVa
    invCmd := .ofNat 64 (scope * 2 ^ 59 + vm * 2 ^ 54 + asid.toNat * 2 ^ 38 + pages.toNat) } }

/-- TLBINV of everything (R30). -/
def execTlbinvEverything (s : State) : Out := .next (s.tlbCommand 0 0 0 0)
/-- TLBINV of one VM (R30). -/
def execTlbinvVm (vm : BitVec 5) (s : State) : Out := .next (s.tlbCommand 1 vm.toNat 0 0)
/-- TLBINV of one VM and ASID (R30). -/
def execTlbinvAsid (vm : BitVec 5) (asid : BitVec 16) (s : State) : Out := .next (s.tlbCommand 2 vm.toNat asid 0)
/-- TLBINV of a range of VAs of one VM and ASID (R30). -/
def execTlbinvVaRange (vm : BitVec 5) (asid : BitVec 16) (pages : Word) (s : State) : Out :=
  .next (s.tlbCommand 3 vm.toNat asid pages)
/-- TLBINV of one VM's context space (R30). -/
def execTlbinvContext (vm : BitVec 5) (s : State) : Out := .next (s.tlbCommand 4 vm.toNat 0 0)
/-- A write of TLBINV with bit 62 set: it clears ERR and is no command (R30). -/
def execTlbinvErrClear (s : State) : Out := .next { s with x := { s.x with invErr := false } }

/-- The VAs of an accepted command of scope 3 (R30). -/
def Xlat.invRange (x : Xlat) : Nat × Nat :=
  let lo := bits x.invAt 55 16 * 65536
  let n := bits x.invCmd 31 0
  (lo, lo + (if n = 0 then 1 else n) * 65536)

/-- Whether what is cached for a VM, ASID or context space and a span of VAs is named by a command (R30, R31).  Scope 1 takes the
context space of its VM with it (DEDUCED, log entry 50). -/
def Xlat.names (x : Xlat) (vm : Nat) (asid : BitVec 16) (g ctx : Bool) (va size : Nat) : Bool :=
  let v := bits x.invCmd 58 54
  let a : BitVec 16 := .ofNat 16 (bits x.invCmd 53 38)
  match bits x.invCmd 61 59 with
  | 0 => true
  | 1 => vm == v
  | 2 => vm == v && !ctx && (g || asid == a)
  | 3 => vm == v && !ctx && (g || asid == a) && decide (va < x.invRange.2) && decide (x.invRange.1 < va + size)
  | _ => vm == v && ctx

/-- A cached translation that a command names.  Scopes 2 and 3 take G = 1 entries of the VM, which serve the ASID too (DEDUCED, log entry
50). -/
def Xlat.named (x : Xlat) (t : Tlb) : Bool := x.names t.vm t.asid t.g t.ctx t.va (2 ^ t.log2)

/-- The VAs that a walk-cache entry lies on the path to. -/
def WalkEnt.span (w : WalkEnt) : Nat × Nat :=
  let n := 2 ^ (match w.level with
    | 4 => 47
    | 3 => 38
    | 2 => 29
    | 1 => 21
    | _ => 56)
  (w.slice * n, n)

/-- A walk-cache entry that a command names (R30). -/
def Xlat.namedWalk (x : Xlat) (w : WalkEnt) : Bool := x.names w.vm w.asid false w.ctx w.span.1 w.span.2

/-- A location that a cached translation maps. -/
def Tlb.maps (t : Tlb) (k : Nat) : Bool :=
  let p := if t.dl then k else paOfKey k
  !t.sys && isHbm k && decide (t.pa ≤ p) && decide (p < t.pa + 2 ^ t.log2)

/-- The dirty bytes of every L1 that named translations have reached go home, as class BG, so that the stores made through them have
been performed there (R31; DEDUCED, log entry 50). -/
def State.flushNamed (s : State) : State :=
  let gone := s.x.tlb.filter s.x.named
  (s.cores.map Prod.fst).foldl (fun s core =>
    let lines := (s.core core).l1.filter fun ln => ln.dirty != 0 && gone.any fun t => t.maps ln.loc
    s.l1SendSectors core 3 (lines.flatMap fun ln => allSectors.map fun q => ln.loc + 64 * q)) s

/-- TLBINV_DONE (R31): every named entry is gone from every TLB and walk cache, what was stored through it has been performed, and BUSY
clears.  Host pages are asked for again. -/
def execTlbinvDone (s : State) : Out :=
  if !s.x.invBusy then .fault .eventCannotOccur
  else
    let s := s.flushNamed
    .next { s with x := { s.x with
      invBusy := false, tlb := s.x.tlb.filter (fun t => !s.x.named t), walkc := s.x.walkc.filter (fun w => !s.x.namedWalk w)
      hostPages := [] } }

end Sys2Proof.Machine
end

