-- ==== Sys2Proof/Machine/Fit.lean ====
section
/-! DEFINITION. Where blocks fit (R41, R58, R152, R158, R159, R443): the cores that are enabled, what is free on each, and the
context areas of a VM's pool (R387). -/
namespace Sys2Proof.Machine

/-! ## Enabled cores (R2, R401) -/

/-- The enabled physical clusters of a die in logical order: the first four that are not retired; cluster 4 is the spare
(DESIGN CHOICE, log entry 32). -/
def State.dieClusters (s : State) (die : Nat) : List Nat :=
  (((List.range 5).map fun c => 5 * die + c).filter fun c => !s.clRetired.contains c).take 4

/-- The enabled cores of a die in die order: logical cluster * 4 + core. -/
def State.dieCores (s : State) (die : Nat) : List Nat :=
  (s.dieClusters die).flatMap fun c => (List.range 4).map fun k => 4 * c + k

/-- Nothing is placed on a fenced cluster (R401). -/
def State.fenced (s : State) (core : Nat) : Bool := s.clFenced.contains (clusterOf core)

/-- The ranges of `n` consecutive enabled cores of a die, in order of first core. -/
def State.dieRanges (s : State) (die n : Nat) : List (List Nat) :=
  let cs := s.dieCores die
  (List.range (cs.length + 1 - n)).map fun i => (cs.drop i).take n

/-- The range of `n` cores that begins at a core. -/
def State.rangeAt (s : State) (core n : Nat) : Option (List Nat) :=
  (s.dieRanges (dieOf core) n).find? fun r => r.head? == some core

/-! ## What is free on a core -/

/-- What is taken on a core: block slots, intervals of scratchpad units, units of its accumulator quarter, and for each partition
its wave slots and ring registers. -/
structure Room where
  slots : List Nat := []
  scr : List (Nat × Nat) := []
  acc : Nat := 0
  parts : List (List Nat × Nat) := List.replicate 32 ([], 0)
  deriving DecidableEq, Repr

/-- The waves of a core: a block's waves keep their slots and rings until the block ends or is pre-empted (R172). -/
def State.standing (s : State) (core : Nat) : List Wave :=
  (s.resident core).flatMap fun bi => (s.block bi).waves.map s.wave

/-- What is taken on a core now. -/
def State.room (s : State) (core : Nat) : Room :=
  let bs := (s.resident core).map s.block
  let ws := s.standing core
  { slots := bs.map fun b => b.bslot.val
    scr := (bs.filter fun b => b.scrUnits != 0).map fun b => (b.scrBase, b.scrUnits)
    acc := s.blocks.foldl (fun a b =>
      if b.life == .resident && !b.svc && b.accQuarter == core && b.accUnits != 0 then a + b.accUnits else a) 0
    parts := (List.range 32).map fun p =>
      let mine := ws.filter fun w => w.part.val == p
      (mine.map fun w => w.wslot.val, mine.foldl (fun a w => a + w.ringN) 0) }

/-- What a block asks for: its rank in its gang, scratchpad and accumulator units, ACCQ, the ring sizes of its waves in their
order (R159), and the range-lock entries, reservation entries and rays it brings (R147). -/
structure Need where
  rank : Nat := 0
  scr : Nat := 0
  acc : Nat := 0
  accq : Nat := 0
  rings : List Nat := []
  locks : Nat := 0
  resv : Nat := 0
  rays : Nat := 0
  deriving DecidableEq, Repr

/-- Where a block is put: core, block slot, scratchpad base, accumulator quarter, and partition and wave slot of each wave. -/
structure Spot where
  core : Nat
  bslot : Nat
  scrBase : Nat
  quarter : Nat
  parts : List (Nat × Nat)
  deriving DecidableEq, Repr

/-- The lowest base at which `n` units lie free among 256 (R41). -/
def scrGap (taken : List (Nat × Nat)) (n : Nat) : Option Nat :=
  (List.range (257 - n)).find? fun b => n ≤ 256 && taken.all fun t => decide (b + n ≤ t.1) || decide (t.1 + t.2 ≤ b)

/-- The partition a wave goes on: a free wave slot and the most unreserved ring registers, the lowest on a tie (R159). -/
def choosePart (parts : List (List Nat × Nat)) : Option Nat :=
  (List.range parts.length).foldl (fun best p =>
    let x := parts.getD p ([], 0)
    if 4 ≤ x.1.length then best
    else match best with
      | none => some p
      | some q => if x.2 < (parts.getD q ([], 0)).2 then some p else some q) none

/-- Put waves of some ring sizes on the partitions of a core. -/
def placeRings : List Nat → List (List Nat × Nat) → Option (List (List Nat × Nat) × List (Nat × Nat))
  | [], parts => some (parts, [])
  | n :: rest, parts =>
    match choosePart parts with
    | none => none
    | some p =>
      let x := parts.getD p ([], 0)
      if 512 < x.2 + n then none
      else
        let slot := ((List.range 4).find? fun k => !x.1.contains k).getD 0
        (placeRings rest (parts.set p (slot :: x.1, x.2 + n))).map fun r => (r.1, (p, slot) :: r.2)

/-- Rooms of some cores. -/
abbrev Rooms := List (Nat × Room)
def Rooms.get (rs : Rooms) (core : Nat) : Room := ((rs.find? fun r => r.1 == core).map Prod.snd).getD {}
def Rooms.put (rs : Rooms) (core : Nat) (r : Room) : Rooms := (core, r) :: rs.filter fun x => x.1 != core

/-- The core whose quarter a block on a core uses (R58). -/
def quarterOf (core accq : Nat) : Nat := core / 4 * 4 + (core % 4 + accq) % 4

/-- Put one block on a core. -/
def placeBlock (rs : Rooms) (core : Nat) (n : Need) : Option (Rooms × Spot) :=
  let r := rs.get core
  let q := quarterOf core n.accq
  match (List.range 4).find? (fun k => !r.slots.contains k), (if n.scr = 0 then some 0 else scrGap r.scr n.scr),
      placeRings n.rings r.parts with
  | some slot, some base, some (parts, at_) =>
    let r' := { r with slots := slot :: r.slots, parts := parts, scr := if n.scr = 0 then r.scr else (base, n.scr) :: r.scr }
    let rs := rs.put core r'
    let rq := rs.get q
    if 512 < rq.acc + n.acc then none
    else some (rs.put q { rq with acc := rq.acc + n.acc }, ⟨core, slot, base, q, at_⟩)
  | _, _, _ => none

/-- Put the blocks of a gang on a range: rank r on core floor(r / BPC); with ACCQ the quarter's core must carry a block of the
gang (R158). -/
def placeGang (range : List Nat) (bpc : Nat) (used : List Nat) : List Need → Rooms → Option (Rooms × List Spot)
  | [], rs => some (rs, [])
  | n :: rest, rs =>
    match range[n.rank / bpc]? with
    | none => none
    | some core =>
      if n.accq != 0 && !used.contains (quarterOf core n.accq) then none
      else match placeBlock rs core n with
        | none => none
        | some (rs', spot) => (placeGang range bpc used rest rs').map fun r => (r.1, spot :: r.2)

/-- A gang on a range that holds no fenced core. -/
def State.gangOn (s : State) (rs : Rooms) (range : List Nat) (bpc : Nat) (ns : List Need) : Option (Rooms × List Spot) :=
  if range.any s.fenced then none
  else placeGang range bpc (ns.filterMap fun n => range[n.rank / bpc]?) ns rs

/-- The cores a gang spans. -/
def gangSpan (bpc : Nat) (ns : List Need) : Nat := ns.foldl (fun a n => max a (n.rank / bpc + 1)) 1

/-- The packing of R443: each gang on the first range of one die on which it fits beside the gangs packed before. -/
def State.pack (s : State) (bpc : Nat) (ok : List Nat → Bool) : List (List Need) → Rooms → Option (List (List Spot))
  | [], _ => some []
  | g :: rest, rs =>
    let ranges := (List.range 8).flatMap fun d => s.dieRanges d (gangSpan bpc g)
    match ranges.findSome? (fun r => if ok r then s.gangOn rs r bpc g else none) with
    | none => none
    | some (rs', spots) => (s.pack bpc ok rest rs').map fun t => spots :: t

/-- The rooms of every enabled core. -/
def State.allRooms (s : State) : Rooms :=
  (List.range 8).flatMap fun d => (s.dieCores d).map fun c => (c, s.room c)

/-! ## What a record asks for -/

/-- The waves of a block in their order: role, number within the role, ring size (R159). -/
def recWaveList (r : List DWord) : List (Nat × Nat × Nat) :=
  (List.range 4).flatMap fun role => (List.range (recWaves r role)).map fun i => (role, i, ringSize (recRing r role))

/-- The need of a block of a record. -/
def recNeed (r : List DWord) (rank : Nat) : Need :=
  ⟨rank, recScr r, recAcc r, recAccq r, (recWaveList r).map fun w => w.2.2, 0, 0, 0⟩

/-- The needs of a gang of a record. -/
def recGang (r : List DWord) : List Need := (List.range (recGangSize r)).map (recNeed r)

/-- The number of gangs of a record. -/
def recGangs (r : List DWord) : Nat := recBlocks r / recGangSize r

/-- The position of the block of a rank in a gang (R153, R443): GXI fastest, then GYI, then Z. -/
def blockPos (r : List DWord) (gang rank : Nat) : Nat × Nat × Nat :=
  let nx := recGx r / recGw r
  let ny := recGy r / recGh r
  (gang % nx * recGw r + rank % recGw r, gang / nx % ny * recGh r + rank / recGw r, gang / nx / ny)

/-- TOOLARGE (R155, R443): the gang fits on no empty C-die, or a grid with grid barriers is not packed on an empty device; a STAGE grid,
which is 65,535 blocks wide (R167), never is (DEDUCED, log entry 54). -/
def State.tooLarge (s : State) (r : List DWord) : Bool :=
  if recUsesGb r then
    recKind r == 2 || decide (512 < recBlocks r) || (s.pack (recBpc r) (fun _ => true) (List.replicate (recGangs r) (recGang r)) []).isNone
  else
    let g := recGang r
    !(List.range 8).any fun d => (s.dieRanges d (gangSpan (recBpc r) g)).any fun range => (s.gangOn [] range (recBpc r) g).isSome

/-! ## Context areas (R186, R387) -/

/-- Units of 64 KiB that hold some bytes. -/
def units64 (bytes : Nat) : Nat := (bytes + 65535) / 65536

/-- Where the ring save and the wave state block lie in a wave's area: after the spill area, the overflow region and the split
stack, which is rounded to 4 KiB (DEDUCED, log entry 33). -/
def ringSaveOff (spill split : Nat) : Nat := 65536 * spill + 65536 + (16 * split + 4095) / 4096 * 4096
def waveStateOff (spill split ringN : Nat) : Nat := ringSaveOff spill split + 128 * ringN

/-- Units of a wave's area and of a block's save area. -/
def waveUnits (spill split ringN : Nat) : Nat := units64 (waveStateOff spill split ringN + 4096)
def blockUnits (scr acc : Nat) : Nat := units64 (16384 + (scr + acc) * 4096)

def Wave.areaUnits (w : Wave) : Nat := waveUnits w.spillUnits w.splitMax w.ringN
def State.areaUnits (s : State) (bi : Nat) : Nat :=
  let b := s.block bi
  b.waves.foldl (fun a wi => a + (s.wave wi).areaUnits) (blockUnits b.scrUnits b.accUnits)

/-- The areas in use in a VM's pool: of blocks that stand, are saved or are being saved, handlers among them (64 KiB units). -/
def State.areasOf (s : State) (vm : Nat) : List (Nat × Nat) :=
  (List.range s.blocks.length).filterMap fun i =>
    let b := s.block i
    if (s.grid b.grid).vm == vm && (b.life == .resident || b.life == .saved || b.life == .unplaced true) then some (b.area / 65536, s.areaUnits i)
    else none

/-- The first place for `n` units above `base` beside some areas: at `base`, or at the end of one of them. -/
def poolGap (taken : List (Nat × Nat)) (base last n : Nat) : Option Nat :=
  let starts := (base :: taken.map fun t => t.1 + t.2).filter fun b =>
    decide (base ≤ b) && decide (b + n ≤ last + 1) && taken.all fun t => decide (b + n ≤ t.1) || decide (t.1 + t.2 ≤ b)
  starts.foldl (fun m b => match m with
    | none => some b
    | some a => some (min a b)) none

/-- CTXPOOLn (R387): its first and last unit while it is enabled. -/
def State.poolOf (s : State) (vm : Nat) : Option (Nat × Nat) :=
  let w0 : DWord := Sparse.get 0 s.ctxPool (2 * vm)
  if w0.getLsbD 63 then some (bits w0 55 16, bits (Sparse.get 0 s.ctxPool (2 * vm + 1)) 55 16) else none

/-- Areas for some numbers of units in a VM's pool, each the lowest that is free; their context VAs. -/
def State.allocate (s : State) (vm : Nat) (sizes : List Nat) : Option (List Nat) :=
  match s.poolOf vm with
  | none => none
  | some (base, last) =>
    (sizes.foldl (fun (acc : Option (List (Nat × Nat) × List Nat)) n => match acc with
      | none => none
      | some (taken, out) =>
        match poolGap taken base last n with
        | none => none
        | some b => some ((b, n) :: taken, out ++ [65536 * b])) (some (s.areasOf vm, []))).map Prod.snd

/-- The units a block of a record takes in the pool. -/
def recUnits (r : List DWord) : Nat :=
  (List.range 4).foldl (fun a n =>
    a + recWaves r n * waveUnits (recSpill r n) (recSplit r n) (ringSize (recRing r n))) (blockUnits (recScr r) (recAcc r))

end Sys2Proof.Machine
end

