-- ==== Sys2Proof/Machine/Hub.lean ====
section
/-! DEFINITION. The hub's launch queues and the acceptance of launch records (R154-R156, R362, R381-R383, R444), and the end of a
grid (R173). -/
namespace Sys2Proof.Machine

/-! ## Accesses of the hub -/

/-- What a read of the hub meets; it posts no fault record. -/
inductive HubRead where
  | ok (s : State) (bs : List Byte)
  | fail (s : State)
  | pri (s : State)
  deriving DecidableEq, Repr

/-- The hub translates some bytes of a VM and ASID; a VA outside the translated space fails. -/
def State.hubPlace (s : State) (vm : Nat) (asid : BitVec 16) (acc : Access) (va n : Nat) : GotAll :=
  if landingVa < va + n then .fault va Kind.notPresent 0 false
  else s.placeAll 64 3 ⟨vm, asid, false, false⟩ acc (span va n)

/-- Read bytes for an acceptance; a poisoned byte fails as a translation does (DEDUCED, log entry 34). -/
def State.hubRead (s : State) (vm : Nat) (asid : BitVec 16) (va n : Nat) : HubRead :=
  match s.hubPlace vm asid .engRead va n with
  | .fault .. => .fail s
  | .pri s' => .pri s'
  | .ok s' ls =>
    let ks := ls.map Loc.key
    if ks.any s'.secPoison then .fail s' else .ok (s'.l2TouchAll ks 3 false) (s'.bytesAt ks)

/-- Words of 64 bits from bytes. -/
def dwords (bs : List Byte) : List DWord :=
  (List.range (bs.length / 8)).map fun i => .ofNat 64 (leNat ((bs.drop (8 * i)).take 8))
/-- Words of 32 bits from bytes. -/
def words32 (bs : List Byte) : List Word :=
  (List.range (bs.length / 4)).map fun i => .ofNat 32 (leNat ((bs.drop (4 * i)).take 4))

/-- How a completion record's write ends. -/
inductive HubWrite where
  | done (s : State)
  | dropped (s : State)
  | pri (s : State)
  deriving DecidableEq, Repr

/-- Write a completion record (R156): a release at system scope, then vector 1 of the VM. -/
def State.complete (s : State) (vm : Nat) (asid : BitVec 16) (va status blocks : Nat) : HubWrite :=
  match s.hubPlace vm asid .engWrite va 16 with
  | .fault .. => .dropped s
  | .pri s' => .pri s'
  | .ok s' ls =>
    let bytes := leBytes 8 (status * 2 ^ 56 + blocks % 2 ^ 32) ++ leBytes 8 0
    .done ((s'.homeWrite 3 ((ls.map Loc.key).zip bytes)).raiseMsi vm 1)

/-- LQCTL.ERR of a VM is set. -/
def State.lqErr (s : State) (vm : Nat) : State := s.setLq vm { s.lqOf vm with err := true }

/-! ## Submission (R381-R383) -/

/-- The ring is in use: EN, and a LOG2N of 4-16. -/
def LqSt.open' (q : LqSt) : Bool := q.en && decide (4 ≤ q.log2n) && decide (q.log2n ≤ 16)

/-- Host entries submitted and not taken. -/
def LqSt.hostCount (q : LqSt) : Nat := q.subs.countP fun e => e == .host

/-- The first `n` host entries among some submissions, with every device entry. -/
def firstHosts : Nat → List LSub → List LSub
  | _, [] => []
  | n, .dev va asid :: t => .dev va asid :: firstHosts n t
  | 0, .host :: t => firstHosts 0 t
  | n + 1, .host :: t => .host :: firstHosts n t

/-- Host entries up to TAIL count as submitted, at most 2^LOG2N ahead of HEAD, and none past a TAIL that is written back; a TAIL further
ahead sets ERR (R382). -/
def LqSt.submitHost (q : LqSt) : LqSt :=
  if !q.open' then q
  else
    let ahead := (q.tail - q.head).toNat
    let lim := min ahead (2 ^ q.log2n)
    { q with err := q.err || decide (2 ^ q.log2n < ahead), subs := firstHosts lim q.subs ++ List.replicate (lim - q.hostCount) .host }

/-- A write of LQCTL (R381, R383): while the ring is not in use its entries do not stand in the order of submission. -/
def LqSt.ctlWrite (q : LqSt) (val : DWord) : LqSt :=
  let q := { q with
    en := val.getLsbD 63, dev := val.getLsbD 62, err := q.err && !val.getLsbD 61
    asid := .ofNat 16 (bits val 31 16), log2n := bits val 4 0 }
  if q.open' then q.submitHost else { q with subs := q.subs.filter fun e => e != .host }

/-- LQ_TAIL_WRITE (R382). -/
def execLqTailWrite (fn : BitVec 5) (tail : Word) (s : State) : Out :=
  if 17 ≤ fn.toNat then .fault .eventCannotOccur
  else .next (s.setLq fn.toNat { s.lqOf fn.toNat with tail := tail }.submitHost)

/-- LQCTL_ENABLE (R383): LQCTL is written with EN = 1. -/
def execLqctlEnable (fn : BitVec 5) (val : DWord) (s : State) : Out :=
  if 17 ≤ fn.toNat || !val.getLsbD 63 then .fault .eventCannotOccur
  else .next (s.setLq fn.toNat ((s.lqOf fn.toNat).ctlWrite val))

/-! ## The checks of a record (R155, R444) -/

/-- The reserved bits of word `i` of a record (R154). -/
def recReserved (i : Nat) : DWord :=
  match i with
  | 0 => 0x0000010000000000 ||| 0xFFFF
  | 1 | 5 | 7 => 0xFF00000000000000
  | 2 => 0xFF
  | 3 => 0x0100000000000000
  | 4 => 0x0000000F0000FFFF
  | 6 | 30 | 31 => 0xFFFFFFFFFFFFFFFF
  | 8 | 9 | 10 | 11 => 0x00003F0000000000
  | 12 | 13 | 14 | 15 => 0x003F003F003F003F
  | 16 | 17 | 18 | 19 => 0x0000FFFF0000FFFF
  | 20 | 21 => 0x00007FFF00007FFF
  | 22 | 24 | 26 | 28 => 0x3F00000000000000
  | 23 | 25 | 27 | 29 => 0x00000000000FFFFF
  | _ => 0

/-- Every barrier of a record with the roles it names. -/
def recBarriers (r : List DWord) : List Barrier :=
  (List.range 16).map (recBb r) ++ (List.range 8).map (recCb r) ++ (List.range 4).map (recGb r)

/-- A barrier that breaks R155: in use without members, or naming a role without waves. -/
def barrierBad (r : List DWord) (b : Barrier) : Bool :=
  (b.expect != 0 && b.members == 0) || (List.range 4).any fun n => b.members.getLsbD n && recWaves r n == 0

/-- The total of the role counts. -/
def recTotal (r : List DWord) : Nat := (List.range 4).foldl (fun a n => a + recWaves r n) 0

/-- BADFIELD of a record by itself (R154, R155, R362); a STAGE record's GX, GY and GZ are ignored (R167). -/
def recBad (r : List DWord) : Bool :=
  (List.range 32).any (fun i => recWord r i &&& recReserved i != 0)
  || decide (2 < recKind r) || recBpc r == 0 || decide (4 < recBpc r)
  || recEntry r % 4 != 0 || decide (64 < recArgw r) || recArgs r % 4 != 0
  || decide (256 < recScr r) || decide (512 < recAcc r)
  || recTotal r == 0 || decide (32 < recTotal r) || decide (16 < recGangSize r)
  || (recKind r != 2 && (recGx r == 0 || recGy r == 0 || recGz r == 0 || recGx r % recGw r != 0 || recGy r % recGh r != 0))
  || (List.range 4).any (fun n => recRing r n == 7 || decide (256 < recSplit r n) || decide (64 < recSpill r n) || recEntoff r n % 4 != 0
      || recBring r n == 7 || decide (256 < recBsplit r n) || decide (64 < recBspill r n)
      || (recTimer r n != 0 && decide (recTimer r n < 64)))
  || (recBarriers r).any (barrierBad r)
  || (recKind r != 1 && (recBarriers r).any Barrier.raster)
  || (recKind r == 1 && !(List.range 4).any fun n => (recGb r n).raster)

/-- GOVCTL.EN of a VM. -/
def State.govOf (s : State) (vm : Nat) : GovSt := Sparse.get {} s.gov vm
def State.setGov (s : State) (vm : Nat) (g : GovSt) : State := { s with gov := Sparse.set {} s.gov vm g }

/-- The active STAGE grid of a stage of a VM (R167). -/
def State.stageGrid (s : State) (vm stage : Nat) : Option Nat :=
  (List.range s.grids.length).find? fun i =>
    let g := s.grid i
    g.life == .active && g.vm == vm && recKind g.record == 2 && recStage g.record == stage

/-- The fields of a raster descriptor that break the table of R362. -/
def rasterBad (d : List DWord) : Bool :=
  let w := fun i => d.getD i 0
  (w 0 == 0 && w 1 == 0)
  || [2, 3, 4, 5].any (fun i => bits (w i) 63 56 != 0)
  || bits (w 2) 5 0 != 0 || [3, 4, 5].any (fun i => bits (w i) 7 0 != 0)
  || bits (w 6) 39 32 != 0 || bits (w 6) 7 0 != 0 || bits (w 7) 39 32 != 0
  || bits (w 8) 29 28 == 3 || bits (w 8) 26 25 == 3 || bits (w 8) 22 0 != 0
  || bits (w 9) 31 0 != 0 || w 10 != 0 || w 11 != 0

/-! ## Acceptance -/

/-- How a record fares: accepted, rejected with a status, or waiting for a host page. -/
inductive Verdict where
  | accept (s : State) (g : Grid)
  | reject (s : State) (status : Nat)
  | pri (s : State)
  deriving DecidableEq, Repr

namespace Status
def badVersion : Nat := 1
def badField : Nat := 2
def tooLarge : Nat := 3
def launchFault : Nat := 4
def killed : Nat := 5
end Status

/-- Go on with the bytes of a read, or reject with LAUNCHFAULT. -/
def HubRead.then' (r : HubRead) (k : State → List Byte → Verdict) : Verdict :=
  match r with
  | .ok s bs => k s bs
  | .fail s => .reject s Status.launchFault
  | .pri s => .pri s

/-- A read of no bytes when it is not needed. -/
def State.hubReadIf (s : State) (need : Bool) (vm : Nat) (asid : BitVec 16) (va n : Nat) : HubRead :=
  if need then s.hubRead vm asid va n else .ok s []

/-- The bindings of a parameter-window table (R154): base and size of each. -/
def pwBindings (bs : List Byte) : List (DWord × Nat) :=
  (List.range 16).map fun n => (.ofNat 64 (leNat ((bs.drop (16 * n)).take 8)), leNat ((bs.drop (16 * n + 8)).take 4))

/-- Steps 5 to 8 of R444. -/
def State.judgeRest (s : State) (vm : Nat) (asid : BitVec 16) (r : List DWord) : Verdict :=
  (s.hubReadIf (recArgw r != 0) vm asid (recArgs r) (4 * recArgw r)).then' fun s args =>
  (s.hubReadIf (recPwmask r != 0) vm asid (recPwtab r) 256).then' fun s tab =>
    let pw := pwBindings tab
    let bound := fun n => recPwmask r / 2 ^ n % 2 == 1
    let p15 := pw.getD 15 (0, 0)
    if (List.range 16).any fun n => bound n && bits (pw.getD n (0, 0)).1 3 0 != 0 then .reject s Status.badField
    else if recKind r = 1 && (!bound 15 || decide (p15.2 < 96)) then .reject s Status.badField
    else (s.hubReadIf (recKind r = 1) vm asid p15.1.toNat 96).then' fun s ras =>
      if recKind r = 1 && rasterBad (dwords ras) then .reject s Status.badField
      else if s.tooLarge r then .reject s Status.tooLarge
      else .accept s
        { vm := vm, asid := asid, record := r, args := words32 args, pw := pw, raster := dwords ras
          gb := (List.range 4).map (recGb r), held := [s.mem] }

/-- Steps 3 and 4 of R444, then the rest. -/
def State.judge (s : State) (vm : Nat) (asid : BitVec 16) (r : List DWord) : Verdict :=
  if recVersion r != 1 then .reject s Status.badVersion
  else if recAsid r != asid || recBad r
      || (recKind r = 2 && (!(s.govOf vm).en || (s.stageGrid vm (recStage r)).isSome)) then .reject s Status.badField
  else s.judgeRest vm asid r

/-- A rejection: its completion record where DONE is known and can be written, else ERR (R381, R382). -/
def State.rejected (s : State) (vm : Nat) (asid : BitVec 16) (done status : Nat) : HubWrite :=
  if done = 0 then .dropped (s.lqErr vm)
  else match s.complete vm asid done status 0 with
    | .dropped s' => .dropped (s'.lqErr vm)
    | w => w

/-- The outcome of a hub step; a wait for a host page leaves all else as it was. -/
def hubOut (s : State) : HubWrite → Out
  | .done s' => .next s'
  | .dropped s' => .next s'
  | .pri s' => waited s s'

/-- Take a record: read it, judge it, and accept or reject it (R155, R444). -/
def State.takeRecord (s0 s : State) (vm : Nat) (asid : BitVec 16) (va : Nat) : Out :=
  if va % 64 ≠ 0 then hubOut s0 (s.rejected vm asid 0 Status.badField)
  else match s.hubRead vm asid va 256 with
    | .fail s' => hubOut s0 (s'.rejected vm asid 0 Status.launchFault)
    | .pri s' => waited s0 s'
    | .ok s' bs =>
      let r := dwords bs
      match s'.judge vm asid r with
      | .pri s'' => waited s0 s''
      | .reject s'' status => hubOut s0 (s''.rejected vm asid (recDone r) status)
      | .accept s'' g => .next { s'' with grids := s''.grids ++ [g] }

/-- The next submission that the hub can take: a host entry waits while the ring is not in use (R383). -/
def LqSt.next (q : LqSt) : Option Nat := q.subs.findIdx? fun e => q.open' || e != .host

/-- LAUNCH_ACCEPT (R155, R382, R383): the hub takes the next submission of a VM. -/
def execLaunchAccept (vm : BitVec 5) (s : State) : Out :=
  let v := vm.toNat
  let q := s.lqOf v
  match q.next with
  | none => .fault .eventCannotOccur
  | some i =>
    match q.subs[i]? with
    | none => .fault .eventCannotOccur
    | some (.dev va asid) => State.takeRecord s (s.setLq v { q with subs := q.subs.eraseIdx i }) v asid va.toNat
    | some .host =>
      let s1 := s.setLq v { q with subs := q.subs.eraseIdx i, head := q.head + 1 }
      match s1.hubRead v q.asid (q.base + 16 * (q.head.toNat % 2 ^ q.log2n)) 16 with
      | .fail s' => hubOut s (s'.rejected v q.asid 0 Status.launchFault)
      | .pri s' => waited s s'
      | .ok s' bs =>
        let w := dwords bs
        let w0 := w.getD 0 0
        let w1 := w.getD 1 0
        if bits w0 63 56 != 0 || bits w1 63 16 != 0 then hubOut s (s'.rejected v q.asid 0 Status.badField)
        else State.takeRecord s s' v (.ofNat 16 (bits w1 15 0)) (bits w0 55 0)

/-! ## The end of a grid (R173) -/

/-- Berths that hold lanes of a grid. -/
def State.berthsOf (s : State) (gi : Nat) : Nat :=
  s.cores.foldl (fun a kc => a + kc.2.berths.countP fun b => b.2.grid == gi) 0

/-- Whether every block of a grid has been placed or will not be: a STAGE grid ends once it is stopped (R171). -/
def Grid.allPlaced (g : Grid) : Bool := if recKind g.record = 2 then g.stopped else g.stopped || g.placed == recBlocks g.record

/-- The conditions of R173; a RASTER grid that was not killed has its triangles rasterised and its raster arrival made. -/
def State.gridOver (s : State) (gi : Nat) : Bool :=
  let g := s.grid gi
  g.life == .active && g.allPlaced && s.berthsOf gi == 0
    && (List.range s.blocks.length).all (fun i =>
      let b := s.block i
      b.grid != gi || b.life == .ended || match b.life with
        | .killed _ => true
        | _ => false)
    && (recKind g.record != 1 || g.killed || (g.triangles == [] && g.rasterDone))

/-- GRID_END (R173, R156): the completion record is the grid's last write; one that cannot be written sets ERR. -/
def execGridEnd (grid : Nat) (s : State) : Out :=
  let g := s.grid grid
  if s.grids.length ≤ grid || !s.gridOver grid then .fault .eventCannotOccur
  else
    let done := s.updGrid grid fun g => { g with life := .ended, triangles := [] }
    if recDone g.record = 0 then .next done
    else match done.complete g.vm g.asid (recDone g.record) (if g.killed then Status.killed else 0) g.ended with
      | .done s' => .next s'
      | .dropped s' => .next (s'.lqErr g.vm)
      | .pri s' => waited s s'

end Sys2Proof.Machine
end

