-- ==== Sys2Proof/Machine/EngineRun.lean ====
section
/-! DEFINITION. Engine operations go on and end: ENGINE_COMPLETION (R139) and FAILED_OPERATION (R140, R146).  Each kind acts between its
restart points of R147, one part in a step: a line of a COPY or XFM, a row of a GATHER, a circulant block, a band or a row of one, a part of
a ray; a collective operation acts in the step that ends it (DEDUCED, log entry 4). -/
namespace Sys2Proof.Machine

/-- Perform the writes of a part of an operation of `n` parts, and end it with the last one. -/
def State.runPart (s : State) (i : Nat) (o : EngOp) (n : Nat) (x : Eng (List EngWrite)) : Out :=
  x.take s i fun s' ws =>
    let s1 := s'.doWrites o ws
    .next (if n ≤ o.done + 1 then s1.finishOp i o none else s1.updOp i fun o => { o with done := o.done + 1 })

/-- ENGINE_COMPLETION: the next part of an operation, and its end when nothing is left.  It ends in a slot of the
HBM calendar that serves its class where it moved data to or from HBM (R68), as do the other events below that move it. -/
def execEngineCompletion (op : Nat) (s : State) : Out :=
  match s.ops[op]? with
  | none => .fault .eventCannotOccur
  | some o =>
    if !s.opRuns o || !s.opTurn op o then .fault .eventCannotOccur
    else heldToSlot s (s.opCls o) <| match o.instr with
      | .copy _ dscr sscr _ _ _ _ =>
        s.runPart op o (copyParts o dscr sscr) (s.runCopy op o dscr sscr (copyPart o dscr sscr).1 (copyPart o dscr sscr).2)
      | .copym .. => if copymDone o then .next (s.finishOp op o none) else .fault .eventCannotOccur
      | .gather _ iscr _ _ _ _ _ _ => s.runPart op o (o.val 4) (s.runGather op o iscr o.done)
      | .coll .. => s.runPart op o 1 (s.runColl op o)
      | .tmma .. | .tmmd .. | .tvmm .. | .tmms .. | .tzero .. | .taccld .. | .taccst .. => s.stepBand op o
      | .tfft .. | .tift .. | .xchain .. => s.runPart op o (transformParts o) (s.runTransform op o o.done)
      | .xfm _ tr _ _ _ =>
        if (o.ent 0).meets (o.ent 1) then s.runPart op o 1 (s.runXfm op o tr)
        else
          let ps := xfmParts (o.ent 0)
          s.runPart op o ps.length (s.runXfmPart op o tr (ps.getD o.done (0, 0, 0)))
      | .tabld .. =>
        match tabOf o with
        | some t => .next ((s.loadEverywhere op o t).finishOp op o none)
        | none => .fault .eventCannotOccur
      | .trace .. | .matev .. => s.stepRays op o
      | _ => .fault .eventCannotOccur

/-- What a failed operation has written of the part that failed: a prefix of its writes (DESIGN CHOICE, log entry 12). -/
def State.failPrefix (s : State) (i : Nat) (o : EngOp) (done : Nat) : Eng (List EngWrite) :=
  match o.instr with
  | .copy _ dscr sscr _ _ _ _ =>
    if done ≤ (copyPart o dscr sscr).2 then s.runCopy i o dscr sscr (copyPart o dscr sscr).1 done else .wait s
  | .coll _ _ _ _ dscr _ _ _ _ _ =>
    if done ≤ o.data.length then
      (s.engDest i o dscr (o.val 0) done).bind fun s ts => .ok s (engWrites ts o.data)
    else .wait s
  | _ => if done = 0 then .ok s [] else .wait s

/-- FAILED_OPERATION: the operation ends with its tag error record. -/
def execFailedOperation (op done : Nat) (s : State) : Out :=
  match s.ops[op]? with
  | none => .fault .eventCannotOccur
  | some o =>
    if !s.opRuns { o with failed := none } then .fault .eventCannotOccur
    else match o.failed, s.failPrefix op o done with
      | some e, .ok s' ws => heldToSlot s (s.opCls o) (.next ((s'.doWrites o ws).finishOp op o (some e)))
      | _, _ => .fault .eventCannotOccur

end Sys2Proof.Machine
end

