-- ==== Sys2Proof/Machine/Ferry.lean ====
section
/-! DEFINITION. The Window Ferry at its work (R187-R192, R202): spill writes, refills, frame records and split-stack entries in a
wave's context area. -/
namespace Sys2Proof.Machine

/-! ## The context area of a wave (R186, R211) -/

/-- The context VA of the record of the `k`-th frame, the oldest being 1. -/
def Wave.recordVa (w : Wave) (k : Nat) : Nat := w.ctx + 65536 * w.spillUnits + 16 * (k - 1)
/-- The context VA of split-stack entry `k`. -/
def Wave.splitVa (w : Wave) (k : Nat) : Nat := w.ctx + 65536 * w.spillUnits + 65536 + 16 * k

/-- What a Ferry access meets. -/
inductive Ferried where
  /-- The locations of the first bytes of some aligned units. -/
  | ok (s : State) (ks : List Nat)
  /-- A fault record was joined or made: the wave waits on it (R190). -/
  | fault (s : State)
  | pri (s : State)
  deriving DecidableEq, Repr

/-- Translate the Ferry's accesses of a wave, or stop the wave on a fault record (R190). -/
def State.ferryPlace (s : State) (wi : Nat) (acc : Access) (vas : List Nat) : Ferried :=
  let w := s.wave wi
  let b := s.block w.block
  match s.placeAll (clusterOf b.core) b.cls.val (s.ctxSpace wi) acc vas with
  | .ok s' ls => .ok s' (ls.map Loc.key)
  | .pri s' => .pri s'
  | .fault va kind ptepa sys =>
    let r := s.raiseFault b.core (s.ctxSpace wi) va acc kind ptepa sys w.part.val w.wslot.val 0
    .fault (r.1.updWave wi fun w => { w with fwait := true, ferryFault := some r.2 })

/-! ## Registers as bytes (R186, R193) -/

/-- Write a register's 128 bytes at a location. -/
def State.putRegister (s : State) (cls k : Nat) (r : List Word × LaneMask) : State :=
  let s := s.homeWrite cls (writesFrom k (regBytes r.1))
  (List.range 2).foldl (fun s h => if halfPoison r.2 h then s.setSecPoison (k + 64 * h) true else s) s

/-- The register held at a location; a poisoned sector makes its sixteen words poisoned. -/
def State.getRegister (s : State) (k : Nat) : List Word × LaneMask :=
  ((List.range 32).map fun l => .ofNat 32 (leNat (s.bytesAt (span (k + 4 * l) 4))),
    maskOf fun l => s.secPoison (k + 64 * (l / 16)))

/-- A ring register with its words and their poison. -/
def Wave.setRegister (w : Wave) (pos : Nat) (r : List Word × LaneMask) : Wave :=
  (List.range 32).foldl (fun w l =>
    if r.2.getLsbD l then w.setPoison (ringKey pos l) (r.1.getD l 0) else w.setReg (ringKey pos l) (r.1.getD l 0)) w

/-! ## Spill writes and the other writes (R187, R188, R202) -/

/-- The first job of a core's Ferry whose wave waits on no record: the work of one wave keeps its order (R189). -/
def State.nextJob (s : State) (core : Nat) : Option (Nat × FerryJob) :=
  let js := (s.core core).ferry
  match js.findIdx? fun j => !(s.wave j.wave).fwait with
  | some i => js[i]?.map fun j => (i, j)
  | none => none

/-- A job leaves the Ferry. -/
def State.jobDone (s : State) (core i : Nat) : State := s.updCore core fun c => { c with ferry := c.ferry.eraseIdx i }

/-- Write 16-byte or 128-byte units at translated places. -/
def State.ferryWrite (s : State) (core i wi : Nat) (acc : Access) (vas : List Nat) (put : State → List Nat → State) : Out :=
  match s.ferryPlace wi acc vas with
  | .fault s' => .next s'
  | .pri s' => waited s s'
  | .ok s' ks => .next ((put s' ks).jobDone core i)

/-- SPILL_WRITE: the Ferry of a core performs its oldest piece of work: a spilled frame's registers go to their slot, a frame
record to the overflow region, a split-stack entry to or from the stack. -/
def execSpillWrite (core : Nat) (s : State) : Out :=
  match s.nextJob core with
  | none => .fault .eventCannotOccur
  | some (i, j) =>
    let w := s.wave j.wave
    let cls := (s.block w.block).cls.val
    heldToSlot s cls <| match j with
    | .spill wi _ sb regs =>
      s.ferryWrite core i wi .spill ((List.range regs.length).map fun n => w.slotVa sb n) fun s ks =>
        (ks.zip regs).foldl (fun s kr => s.putRegister cls kr.1 kr.2) s
    | .record wi k f =>
      s.ferryWrite core i wi .spill [w.recordVa k] fun s ks =>
        ks.foldl (fun s key => s.homeWrite cls (writesFrom key (wordsBytes (frameRecWords f)))) s
    | .push wi k p =>
      s.ferryWrite core i wi .spill [w.splitVa k] fun s ks =>
        ks.foldl (fun s key => s.homeWrite cls (writesFrom key (wordsBytes (pathWords true false p)))) s
    | .pop wi k => s.ferryWrite core i wi .refill [w.splitVa k] fun s ks => s.l2TouchAll ks cls false

/-! ## Refills (R183, R187, R288) -/

/-- The newest frame of a wave still in the Ferry's buffer: the last spill of that frame (R187). -/
def State.bufferedFrame (s : State) (wi k : Nat) : Option (List (List Word × LaneMask)) :=
  (s.core (s.block (s.wave wi).block).core).ferry.reverse.findSome? fun j => match j with
    | .spill v n _ regs => if v == wi && n == k then some regs else none
    | _ => none

/-- The frame's registers are put in the ring: positions (WB - size) mod N onward (R183). -/
def Wave.refillRegs (w : Wave) (f : Frame) (regs : List (List Word × LaneMask)) : Wave :=
  let lo := w.wb + w.ringN - f.size % w.ringN
  (List.range regs.length).foldl (fun w i => w.setRegister ((lo + i) % w.ringN) (regs.getD i ([], 0))) w

/-- What a refilled or fetched frame completes: an unwinding goes on (R288), or the RET that waits is done (R183, R287). -/
def Wave.afterRefill (w : Wave) (f : Frame) (held : Bool) : Wave :=
  let w := w.popWindow f held
  match w.unwind with
  | some target => Wave.unwindTo target (w.depth + 1) { w with refilling := false }
  | none =>
    let b := w.refillB
    let w := { w with
      refilling := false
      slotA := { w.slotA with last := !b, waiting := if b then w.slotA.waiting else false }
      slotB := { w.slotB with last := b, waiting := if b then false else w.slotB.waiting } }
    w.setPath b { w.path b with pc := f.retpc, depth := w.depth }

/-- A wave that stands on its core: what its Ferry may still do for it. -/
def State.onCore (s : State) (wi : Nat) : Bool :=
  let b := s.block (s.wave wi).block
  ((s.wave wi).life == .running || (s.wave wi).life == .trapped || (s.wave wi).life == .handled)
    && b.life == .resident && !b.halted && !(s.wave wi).fwait

/-- REFILL: the newest frame's data arrives, from the Ferry's buffer or, once the spills that the wave started before are performed, from
its slot (R187, R189), and the RET completes. -/
def execRefill (wave : Nat) (s : State) : Out :=
  let w := s.wave wave
  match w.frames.getLast? with
  | none => .fault .eventCannotOccur
  | some f =>
    if !w.refilling || !s.onCore wave || w.onchip = 0 then .fault .eventCannotOccur
    else if !f.spilled then .next (s.setWave wave (w.afterRefill f true))
    else match s.bufferedFrame wave (w.frames.length - 1) with
      | some regs => .next (s.setWave wave ((w.refillRegs f regs).afterRefill f false))
      | none =>
        if (s.core (s.block w.block).core).ferry.any (fun j => match j with
            | .spill v .. => v == wave
            | _ => false) then .fault .eventCannotOccur
        else heldToSlot s (s.block w.block).cls.val <| match s.ferryPlace wave .refill ((List.range f.size).map fun n => w.slotVa f.sbase n) with
        | .fault s' => .next s'
        | .pri s' => waited s s'
        | .ok s' ks =>
          let s' := s'.l2TouchAll ks (s'.block w.block).cls.val false
          .next (s'.setWave wave ((w.refillRegs f (ks.map s'.getRegister)).afterRefill f false))

/-- FRAME_RECORD_FETCH (R188): the newest record of the overflow region comes back on chip; an unwinding that waited for it goes on. -/
def execFrameRecordFetch (wave : Nat) (s : State) : Out :=
  let w := s.wave wave
  let k := w.frames.length - w.onchip
  let held := (s.core (s.block w.block).core).ferry.any fun j => match j with
    | .record v n _ => v == wave && n == k
    | _ => false
  if k = 0 || 16 ≤ w.onchip || held || !s.onCore wave then .fault .eventCannotOccur
  else heldToSlot s (s.block w.block).cls.val <| match s.ferryPlace wave .refill [w.recordVa k, w.recordVa k + 8] with
    | .fault s' => .next s'
    | .pri s' => waited s s'
    | .ok s' ks =>
      let s' := s'.l2TouchAll ks (s'.block w.block).cls.val false
      let f := frameOfWords (s'.word64 (ks.getD 0 0)) (s'.word64 (ks.getD 1 0))
      let w1 := { w with frames := w.frames.set (k - 1) f, onchip := w.onchip + 1 }
      let w2 := match w1.unwind with
        | some target => if w1.refilling then w1 else Wave.unwindTo target (w1.depth + 1) w1
        | none => w1
      .next (s'.setWave wave w2)

end Sys2Proof.Machine
end

