-- ==== Sys2Proof/Machine/QueueOps.lean ====
section
/-! DEFINITION. QENQ, QDEQ, QSTAT (R322, R323, R150, R95) and SPAWN (R324, R163-R166). -/
namespace Sys2Proof.Machine

/-! ## Queue instructions -/

/-- Registers of a record (R322). -/
def recRegs (rs : Nat) : Nat := 2 * 2 ^ rs

/-- Serve the lanes of a QENQ in order: a status each; none when a lane waits for a host page (R38, R150). -/
def enqLanes (fn q rs : Nat) (bytes : Nat → List Byte) : State → List Nat → Option (State × List (Nat × Nat)) × State
  | s, [] => (some (s, []), s)
  | s, l :: t =>
    let go := fun (s' : State) (st : Nat) => match enqLanes fn q rs bytes s' t with
      | (some (s2, rs), s3) => (some (s2, (l, st) :: rs), s3)
      | (none, s3) => (none, s3)
    match s.enqueue fn q rs (bytes l) with
    | .done s' => go s' 0
    | .full => go s 1
    | .invalid => go s 2
    | .wait s' => (none, s')

/-- What a lane of a QDEQ receives: its status and its record with the poison of its bytes. -/
structure DeqLane where
  lane : Nat
  status : Nat
  words : List (Word × Bool) := []
  deriving DecidableEq, Repr

/-- A record's words, each poisoned with its sector. -/
def State.recordWords (s : State) (n : Nat) (ks : List Nat) : List (Word × Bool) :=
  (List.range n).map fun j =>
    let k := (ks.drop (4 * j)).take 4
    (.ofNat 32 (leNat (s.bytesAt k)), k.any s.secPoison)

/-- Serve the lanes of a QDEQ in order. -/
def deqLanes (fn q rs : Nat) : State → List Nat → Option (State × List DeqLane) × State
  | s, [] => (some (s, []), s)
  | s, l :: t =>
    let go := fun (s' : State) (x : DeqLane) => match deqLanes fn q rs s' t with
      | (some (s2, xs), s3) => (some (s2, x :: xs), s3)
      | (none, s3) => (none, s3)
    match s.dequeue fn q rs with
    | .done s' ks => go s' ⟨l, 0, s'.recordWords (recRegs rs) ks⟩
    | .empty => go s ⟨l, 1, []⟩
    | .invalid => go s ⟨l, 2, []⟩
    | .wait s' => (none, s')

/-- A status as a destination receives it (R323). -/
def statusOf (d : Operand) (st : Nat) : Word :=
  match d with
  | .f _ => boolWord (st == 0)
  | _ => .ofNat 32 st

/-- The record a lane enqueues. -/
def Ctx.recordBytes (c : Ctx) (vr : Operand) (n l : Nat) : List Byte :=
  (List.range n).flatMap fun j => leBytes 4 (c.w.readAt vr l j).toNat

/-- The records that the lanes of a QENQ have reserved: lane, queue and number, from TAIL on (R150). -/
def Ctx.qposts (s : State) (c : Ctx) (q : Nat) (sts : List (Nat × Nat)) : List (Nat × Nat × Word) :=
  ((sts.filter fun x => x.2 == 0).zipIdx).map fun x =>
    (x.1.1, 256 * c.g.vm + q, (s.queue c.g.vm q).tail + .ofNat 32 x.2)

/-- QENQ (R150, R323): a lane's DONE says that its record is written.  The hub writes it, so a store window of the wave does not forbid it
(R95 names the wave's own writes; DESIGN CHOICE, log entry 53). -/
def execQenq (h : Hdr) (rs : BitVec 2) (d b vr : Operand) (s : State) : Out :=
  issue s h fun c => counted s c .ld <|
    let n := recRegs rs.toNat
    guardTraps s c [c.regCheck [(d, 1)] [(b, 1), (vr, n)]] <|
      match enqLanes c.g.vm (c.w.read b 0).toNat rs.toNat (c.recordBytes vr n) s (lanesOf c.act) with
      | (none, s') => .next (s.waitsPri s')
      | (some (s1, sts), _) =>
        let ws := c.w.pending c.act d fun l =>
          ([statusOf d (((sts.find? fun x => x.1 == l).map Prod.snd).getD 0)], false)
        .next (s1.retire c (c.w.count c.act { c.later .ld ws with posts := c.qposts s (c.w.read b 0).toNat sts }) none (some b))

/-- The payload block of a SPEC record: the naturally aligned block that holds its PAYVA, as VA and bytes (R95). -/
def specBlock (ws : List Word) : Nat × Nat :=
  let len := 256 * blockLines ((ws.getD 2 0).toNat / 2 ^ 21 % 8 + 1)
  let va := ((ws.getD 5 0).toNat % 2 ^ 24) * 2 ^ 32 + (ws.getD 4 0).toNat
  (va / len * len, len)

/-- The store window of a wave after a QDEQ.r32 (R95). -/
def openWindow (win : Option (List (Nat × Nat))) (xs : List DeqLane) : Option (List (Nat × Nat)) :=
  let specs := xs.filterMap fun x =>
    let ws := x.words.map Prod.fst
    if x.status = 0 && (ws.getD 1 0).getLsbD 31 then some (specBlock ws) else none
  if specs = [] then win else some (win.getD [] ++ specs)

/-- QDEQ (R150, R323, R95). -/
def execQdeq (h : Hdr) (rs : BitVec 2) (d b vr : Operand) (s : State) : Out :=
  issue s h fun c => counted s c .ld <|
    let n := recRegs rs.toNat
    guardTraps s c [c.regCheck [(d, 1), (vr, n)] [(b, 1)]] <|
      match deqLanes c.g.vm (c.w.read b 0).toNat rs.toNat s (lanesOf c.act) with
      | (none, s') => .next (s.waitsPri s')
      | (some (s1, xs), _) =>
        let recs := xs.flatMap fun x =>
          ((c.w.dstKeys vr x.lane n).zip x.words).map fun kv => ⟨x.lane, kv.1, kv.2.1, kv.2.2⟩
        let ws := recs ++ c.w.pending c.act d fun l =>
          ([statusOf d (((xs.find? fun x => x.lane == l).map DeqLane.status).getD 0)], false)
        let w := c.w.count c.act (c.later .ld ws)
        let w := if rs = 2 then { w with spec := openWindow w.spec xs } else w
        .next (s1.retire c w none (some b))

/-- QSTAT (R323). -/
def execQstat (h : Hdr) (d b : Operand) (s : State) : Out :=
  issue s h fun c => counted s c .ld <|
    guardTraps s c [c.regCheck [(d, 1)] [(b, 1)]] <|
      let q := (c.w.read b 0).toNat
      let x := s.queue c.g.vm q
      let v : Word := if 256 ≤ q || !x.valid then 0xFFFFFFFF else x.commit - x.head
      let n := { c.later .ld (c.w.pending c.act d fun _ => ([v], false)) with
        again := some (.qstat h d b)
        vals := (lanesOf c.act).map fun l => (l, [.ofNat 64 q])
        keys := c.destOf d 1 }
      .next (s.retire c (c.w.count c.act n) none (some b))

/-! ## SPAWN -/

/-- The berth descriptor of an entry VA (R163). -/
def berthDesc (r : List DWord) (entry : Nat) : Option Nat :=
  (List.range 4).find? fun n => recBentry r n != 0 && recBentry r n == entry

/-- The open berth of a key, or the number of a free one (R163). -/
def CoreSt.openBerth (k : CoreSt) (grid : Nat) (entry : DWord) : Option (Nat × Berth) :=
  k.berths.find? fun b => b.2.grid == grid && b.2.entry == entry && !b.2.sailed
def CoreSt.freeBerth (k : CoreSt) : Option Nat := (List.range 32).find? fun i => !k.berths.any fun b => b.1 == i

/-- Put a berth's record. -/
def State.setBerth (s : State) (core i : Nat) (b : Berth) : State :=
  s.updCore core fun k => { k with berths := (i, b) :: k.berths.filter fun x => x.1 != i }

/-- A berth sails (R164). -/
def State.sail (s : State) (core i : Nat) : State :=
  match (s.core core).berths.find? fun b => b.1 == i with
  | some (_, b) => { s.setBerth core i { b with sailed := true, sailedAt := s.clk } with sailed := s.sailed ++ [(core, i)] }
  | none => s

/-- One lane joins a berth; false when no berth is free (R163, R164). -/
def State.joinBerth (s : State) (core grid : Nat) (entry : DWord) (desc : Nat) (pay : List Word) : State × Bool :=
  match (s.core core).openBerth grid entry with
  | some (i, b) =>
    let b' := { b with lanes := b.lanes ++ [pay] }
    let s' := s.setBerth core i b'
    (if b'.lanes.length = 32 then s'.sail core i else s', true)
  | none =>
    match (s.core core).freeBerth with
    | some i => (s.setBerth core i { grid := grid, entry := entry, desc := desc, lanes := [pay], since := s.clk }, true)
    | none => (s, false)

/-- The lanes of a SPAWN in order. -/
def spawnLanes (core grid : Nat) (entry : DWord) (desc : Nat) (pay : Nat → List Word) : State → List Nat → State × List (Nat × Bool)
  | s, [] => (s, [])
  | s, l :: t =>
    let r := s.joinBerth core grid entry desc (pay l)
    let rest := spawnLanes core grid entry desc pay r.1 t
    (rest.1, (l, r.2) :: rest.2)

/-- SPAWN. -/
def execSpawn (h : Hdr) (d a b : Operand) (s : State) : Out :=
  issue s h fun c => counted s c .ld <|
    let entry := c.w.read64 a 0
    let desc := berthDesc c.g.record entry.toNat
    guardTraps s c [c.regCheck [(d, 1)] [(a, 2), (b, 4)],
      c.whenActive (if desc.isNone then some (Cause.badSpawn, c.act, 0) else none)] <|
      let pay := fun l => (List.range 4).map fun j => c.w.readAt b l j
      let r := spawnLanes c.b.core c.b.grid entry (desc.getD 0) pay s (lanesOf c.act)
      let ws := c.w.pending c.act d fun l => ([statusWord d ((r.2.find? fun x => x.1 == l).any Prod.snd)], false)
      .next (r.1.retire c (c.w.count c.act (c.later .ld ws)) (some a) (some b))

/-- BERTH_SAIL (R164): the timer of a berth has passed. -/
def execBerthSail (core berth : Nat) (s : State) : Out :=
  match (s.core core).berths.find? fun b => b.1 == berth with
  | none => .fault .eventCannotOccur
  | some (_, b) =>
    let t := recTimer (s.grid b.grid).record b.desc
    if b.sailed || decide (s.clk < b.since + (if t = 0 then 2048 else t)) then .fault .eventCannotOccur
    else .next (s.sail core berth)

end Sys2Proof.Machine
end

