-- ==== Sys2Proof/Machine/Preempt.lean ====
section
/-! DEFINITION. Pre-emption (R147, R191, R346, R371, R391-R394): the request, the halt of every selected block, and its save to
the context area. -/
namespace Sys2Proof.Machine

/-! ## Selection (R391) -/

def State.pmtOf (s : State) (fn : Nat) : PmtSt := Sparse.get {} s.pmt fn
def State.setPmt (s : State) (fn : Nat) (p : PmtSt) : State := { s with pmt := Sparse.set {} s.pmt fn p }

/-- The VM that PMTCTL of a function acts on. -/
def PmtSt.target (p : PmtSt) (fn : Nat) : Nat := if fn = 0 then p.vm else fn

/-- Whether a grid is affected: its VM, and its class where one class is named. -/
def State.affected (s : State) (vm : Nat) (cls : Option Nat) (gi : Nat) : Bool :=
  let g := s.grid gi
  g.vm == vm && match cls with
    | none => true
    | some k => recClass g.record == k

/-- Whether a block is in the scope: of the class, or a sailed wave of an affected grid. -/
def State.inScope (s : State) (vm : Nat) (cls : Option Nat) (bi : Nat) : Bool :=
  let b := s.block bi
  (s.grid b.grid).vm == vm && match cls with
    | none => true
    | some k => b.cls.val == k || (b.spawned && s.affected vm cls b.grid)

/-- The blocks that a request selects: those resident, one that another function's request has halted among them, and the sailed waves
that it found in their berths. -/
def State.selection (s : State) (vm : Nat) (cls : Option Nat) : List Nat :=
  (List.range s.blocks.length).filter fun i =>
    ((s.block i).life == .resident || (s.block i).life == .unplaced false || (s.block i).life == .unplaced true)
      && !(s.block i).svc && s.inScope vm cls i

/-! ## The halt (R392) -/

/-- A counted instruction of a halted wave: a load is discarded unless its destination is written, parked lanes are to wait again,
and everything else is performed with its results in the saved context. -/
def Wave.haltCounted (w : Wave) (e : Nat × Counted) : Wave :=
  let n := e.2
  let keep := fun (w : Wave) (n' : Counted) =>
    { w with counted := w.counted.map fun x => if x.1 == e.1 then (e.1, n') else x }
  let isWait := match n.again with
    | some (.oscwait ..) => true
    | _ => false
  if n.op.isSome || n.discarded then w
  else if n.parked != [] then
    let still := maskOfList (n.parked.map Parked.lane)
    keep (n.writes.foldl Wave.land w) { n with lanes := n.lanes &&& still, writes := [], parked := [], discarded := true }
  else if n.again.isSome && !isWait then keep w { n with writes := [], discarded := true }
  else
    let w := n.writes.foldl Wave.land w
    { w.bump (· - 1) n.ctr with counted := w.counted.filter fun x => x.1 != e.1 }

/-- A wave halted at an instruction boundary: a waiting instruction executes again (R281), keeping the phase of a `.sync` that has
arrived (R298), as does one that was stalled in translation (R37); a refill is abandoned and its RET executes again
(R191). -/
def Wave.halt (w : Wave) : Wave :=
  if w.life == .ended then w
  else
    let w1 := w.counted.foldl Wave.haltCounted w
    { w1 with
      life := if w.life == .handled then .trapped else w.life
      slotA := { w1.slotA with waiting := false, held := none }
      slotB := { w1.slotB with waiting := false, held := none }
      stalls := [], ferryFault := none, fwait := false
      refilling := w.refilling && w.unwind.isSome }

/-- A ray's state after its last completed bounce; one whose record is ready to be written stays so, and one of a MATEV keeps the hit that
it came with (R147, R377). -/
def Ray.restart (mat : Bool) (y : Ray) : Ray :=
  if y.out != [] then { y with lifeR := .running }
  else { y with lifeR := .running, hit := if mat then y.hit else none, mat := none, got := none }

/-- An operation of a halted block at its restart point; it waits on no record any more (R147).  The matrix engine's is the start of its
band (R346). -/
def EngOp.restart (o : EngOp) (r : Option Resv) : EngOp :=
  { o with saved := true, fault := none, rays := o.rays.map (Ray.restart (o.engine == 20))
           done := if o.engine == 16 || o.engine == 17 then 0 else o.done
           held := r.map fun x => { x with run := false } }

/-- Halt one block. -/
def State.haltBlock (s : State) (bi : Nat) : State :=
  let b := s.block bi
  let ws := b.waves
  let mine := fun (j : FerryJob) => ws.contains j.wave
  let jobs := (s.core b.core).ferry
  let s1 := s.endHandlersOf ws
  let s2 := ws.foldl (fun s wi => s.updWave wi fun w => { w.halt with jobs := jobs.filter fun j => j.wave == wi }) s1
  let s3 := if jobs.any mine then s2.updCore b.core fun c => { c with ferry := c.ferry.filter fun j => !mine j } else s2
  let rs := s3.resvOf (clusterOf b.core)
  let stops := fun (o : EngOp) => o.block == bi && o.life == .running && o.engine != 28
  let kept := fun (r : Resv) => !(s3.ops[r.op]?).any stops
  { (s3.setResv (clusterOf b.core) (rs.filter kept)).updBlock bi fun b => { b with halted := true } with
    ops := (List.range s3.ops.length).zip s3.ops |>.map fun x =>
      if stops x.2 then x.2.restart (rs.find? fun r => r.op == x.1) else x.2
    svcQueue := (s3.svcQueue.map fun kq => (kq.1, kq.2.filter fun w => !ws.contains w)).filter fun kq => kq.2 != [] }

/-- The K registers of a new wave: the argument words in order. -/
def argRegs (args : List Word) : Sparse Word :=
  Sparse.setAll 0 [] ((List.range args.length).map fun i => (kKey i, args.getD i 0))

/-- The wave that a sailed berth's lanes form (R165), in block `bi`. -/
def State.berthWave (s : State) (b : Berth) (bi : Nat) : Wave :=
  let g := s.grid b.grid
  let r := g.record
  let pay := (List.range b.lanes.length).flatMap fun l =>
    (List.range 4).map fun j => (ringKey j l, (b.lanes.getD l []).getD j 0)
  let here := maskOf fun l => decide (l < b.lanes.length)
  { block := bi, spawned := true, ring := .ofNat 7 (recBring r b.desc), regs := Sparse.setAll 0 (argRegs g.args) pay
    launched := here, slotA := { valid := true, path := { mask := here, pc := b.entry } }
    splitMax := recBsplit r b.desc, spillUnits := recBspill r b.desc, age := b.sailedAt }

/-- The block of one wave that a sailed berth's wave forms. -/
def State.berthBlock (s : State) (b : Berth) (core wi : Nat) : Block :=
  { grid := b.grid, core := core, waves := [wi], cls := .ofNat 4 (recBclass (s.grid b.grid).record b.desc)
    spawned := true, bb := List.replicate 16 {}, accQuarter := core }

/-- The units of context area of such a block. -/
def State.berthUnits (s : State) (b : Berth) : Nat :=
  let r := (s.grid b.grid).record
  blockUnits 0 0 + waveUnits (recBspill r b.desc) (recBsplit r b.desc) (ringSize (recBring r b.desc))

/-- The berths of the affected grids sail (R392); their waves, halted before their first instruction (R164), belong to the
selection. -/
def State.sailAffected (s : State) (vm : Nat) (cls : Option Nat) : State :=
  (s.cores.map Prod.fst).foldl (fun s core =>
    ((s.core core).berths.map Prod.fst).foldl (fun s i =>
      match (s.core core).berths.find? fun b => b.1 == i with
      | some (_, b) =>
        if b.block.isSome || !s.affected vm cls b.grid then s
        else
          let b := if b.sailed then b else { b with sailed := true, sailedAt := s.clk }
          let bi := s.blocks.length
          let s1 := s.setBerth core i { b with block := some bi }
          { s1 with
            sailed := s1.sailed.filter fun x => x != (core, i)
            blocks := s1.blocks ++ [{ s.berthBlock b core s.waves.length with life := .unplaced false, halted := true }]
            waves := s1.waves ++ [s.berthWave b bi] }
      | none => s) s) s

/-- The fields of PMTCTL that a write sets. -/
def PmtSt.fields (p : PmtSt) (val : DWord) : PmtSt :=
  { p with hold := val.getLsbD 61, scope := val.getLsbD 60, cls := bits val 59 58, vm := bits val 57 53 }

/-- PREEMPT_REQUEST (R391, R392): every selected block is halted; ignored while BUSY = 1. -/
def execPreemptRequest (fn : BitVec 5) (val : DWord) (s : State) : Out :=
  if 17 ≤ fn.toNat || !val.getLsbD 63 then .fault .eventCannotOccur
  else
    let f := fn.toNat
    let old := s.pmtOf f
    let p := old.fields val
    if old.act.isSome then .next (s.setPmt f p)
    else
      let vm := p.target f
      let cls := if p.scope then some p.cls else none
      let s0 := s.sailAffected vm cls
      let sel := s0.selection vm cls
      let s1 := (sel.filter fun i => !(s0.block i).halted).foldl State.haltBlock s0
      .next (s1.setPmt f { p with sel := sel, act := if sel = [] then none else some (vm, cls) })

/-! ## The save (R393, R394) -/

/-- The register words that share a sector of a wave's state block: the J, F and X files lie in four of them. -/
def smallSectors : List (List Nat) :=
  [span (jKey 0) 6, span (jKey 6) 2 ++ span (flagKey 0 0) 128 ++ span (xKey 0 0) 16, span (xKey 0 16) 64, span (xKey 2 16) 48]

/-- The keys of the sector that holds a register word. -/
def sectorKeys (k : Nat) : List Nat :=
  if k < flagKey 0 0 then span (k / 16 * 16) 16 else (smallSectors.find? fun l => l.contains k).getD [k]

/-- Poison in a save area marks whole sectors, here of sixteen words. -/
def spreadPoison (keys : Nat → List Nat) (p : Sparse Bool) : Sparse Bool :=
  p.foldl (fun m kv => (keys kv.1).foldl (fun m k => Sparse.set false m k true) m) p

/-- A frame of the Ferry's buffer as the saved context brings it back: half of a register shares a sector (R191, R193). -/
def FerryJob.spread : FerryJob → FerryJob
  | .spill w k sb regs => .spill w k sb (regs.map fun r =>
      (r.1, (if halfPoison r.2 0 then 0xFFFF#32 else 0) ||| (if halfPoison r.2 1 then 0xFFFF0000#32 else 0)))
  | j => j

/-- Sixteen words to a sector. -/
def wordSector (k : Nat) : List Nat := span (k / 16 * 16) 16
/-- Two tensor entries to a sector. -/
def entrySector (k : Nat) : List Nat := span (k / 2 * 2) 2

/-- Byte `o` of a block's save area. -/
def State.saveByte (s : State) (bi o : Nat) : Byte :=
  let b := s.block bi
  if o < 0x1900 then (s.saveWord bi (o / 8)).extractLsb' (8 * (o % 8)) 8
  else if o < 0x4000 then Config.ownByte b.area o
  else if o - 0x4000 < b.scrBytes then Sparse.get 0 b.scratch (o - 0x4000)
  else (Sparse.get 0 b.accum ((o - 0x4000 - b.scrBytes) / 4) : Word).extractLsb' (8 * (o % 4)) 8

/-- Whether the sector of a block's save area that begins at `o` is poisoned. -/
def Block.savePoison (b : Block) (o : Nat) : Bool :=
  if o < 0x800 then (span (o / 32) 2).any fun q => Sparse.get false b.tensPoison q
  else if o < 0x4000 then false
  else if o - 0x4000 < b.scrBytes then (span ((o - 0x4000) / 4) 16).any fun q => Sparse.get false b.scrPoison q
  else (span ((o - 0x4000 - b.scrBytes) / 4) 16).any fun q => Sparse.get false b.accPoison q

/-- Byte `o` of a wave's ring save and state block; a wave that has ended uses neither. -/
def State.waveSaveByte (s : State) (wi o : Nat) : Byte :=
  let w := s.wave wi
  let n := 128 * w.ringN
  if w.life == .ended then 0
  else if o < n then (w.reg (o / 4)).extractLsb' (8 * (o % 4)) 8
  else if o - n < 0xA00 then (s.stateWord wi ((o - n) / 8)).extractLsb' (8 * (o % 8)) 8
  else Config.ownByte w.ctx o

/-- The register words of the sector of a wave's state block at an offset. -/
def stateKeys (o : Nat) : List Nat :=
  if 0x40 ≤ o && o < 0x140 then smallSectors.getD (o / 64 - 1) []
  else if 0x200 ≤ o && o < 0x300 then span (kKey 0 + (o - 0x200) / 4) 16
  else if 0x300 ≤ o && o < 0x700 then span (oKey 0 0 + (o - 0x300) / 4) 16
  else if 0x700 ≤ o && o < 0x900 then span (lKey 0 0 + (o - 0x700) / 4) 16
  else []

/-- Whether the sector of a wave's ring save and state block that begins at `o` is poisoned. -/
def Wave.savePoison (w : Wave) (o : Nat) : Bool :=
  w.life != .ended && (if o < 128 * w.ringN then span (o / 4) 16 else stateKeys (o - 128 * w.ringN)).any w.poisoned

/-- The sectors of an area of `n` bytes: VA, bytes, poison. -/
def areaSectors (va n : Nat) (f : Nat → Byte) (p : Nat → Bool) : List (Nat × List Byte × Bool) :=
  (List.range (n / 64)).map fun i => (va + 64 * i, (span (64 * i) 64).map f, p (64 * i))

/-- Where a wave's ring save and state block lie, and their size in bytes. -/
def Wave.saveVa (w : Wave) : Nat := w.ctx + ringSaveOff w.spillUnits w.splitMax
def Wave.saveSize (w : Wave) : Nat := 128 * w.ringN + 4096
/-- The size of a block's save area (R387). -/
def Block.saveSize (b : Block) : Nat := 0x4000 + 4096 * (b.scrUnits + b.accUnits)

/-- What the save engine writes for a block: its save area, then the ring save and state block of each wave. -/
def State.saveSectors (s : State) (bi : Nat) : List (Nat × List Byte × Bool) :=
  let b := s.block bi
  areaSectors b.area b.saveSize (s.saveByte bi) b.savePoison
    ++ b.waves.flatMap fun wi =>
      let w := s.wave wi
      areaSectors w.saveVa w.saveSize (s.waveSaveByte wi) w.savePoison

/-- The block's state as it is kept while it is saved: nothing of it is left on its core. -/
def State.leaveCore (s : State) (bi : Nat) : State :=
  let b := s.block bi
  let s1 := (List.range s.ops.length).foldl (fun s i =>
    if (s.ops[i]?).any fun o => o.block == bi && o.life == .running then s.dropLocks i else s) s
  let s2 := b.waves.foldl (fun s wi => s.updWave wi fun w =>
    { w with poison := spreadPoison sectorKeys w.poison, jobs := w.jobs.map FerryJob.spread }) s1
  let s3 := s2.updCore b.core fun c => { c with berths := c.berths.filter fun x => x.2.block != some bi }
  (s3.updBlock bi fun b =>
    { b with life := .saved, scrPoison := spreadPoison wordSector b.scrPoison, accPoison := spreadPoison wordSector b.accPoison,
             tensPoison := spreadPoison entrySector b.tensPoison }).unselect bi

/-- The grid of a block has raster work that must be done before BUSY clears (R371). -/
def State.rasterPending (s : State) (bi : Nat) : Bool :=
  let g := s.grid (s.block bi).grid
  recKind g.record == 1 && !g.killed && g.triangles != []

/-- A sailed wave that a pre-emption found in its berth has no context area until its save begins; the save waits while the pool has no
room for one (DESIGN CHOICE, log entry 29). -/
def State.giveArea (s : State) (bi : Nat) : Option State :=
  let b := s.block bi
  if b.life != .unplaced false then some s
  else
    match s.allocate (s.grid b.grid).vm [s.areaUnits bi] with
    | some [area] =>
      some (b.waves.foldl (fun s wi => s.updWave wi fun w => { w with ctx := area + 65536 * blockUnits b.scrUnits b.accUnits })
        (s.updBlock bi fun b => { b with life := .unplaced true, area := area }))
    | _ => none

/-- Write a selected block's state to its context area, after its core has sent every dirty byte home (R393). -/
def State.saveBlock (s0 s : State) (block : Nat) : Out :=
    let b := s.block block
    let s1 := s.release b.core b.cls.val .system
    let secs := s1.saveSectors block
    let sp : Space := ⟨(s.grid b.grid).vm, 0, true, false⟩
    match s1.placeAll (clusterOf b.core) b.cls.val sp .engWrite (secs.map Prod.fst) with
    | .pri s' => waited s0 s'
    | .fault va kind ptepa sys =>
      let r := s1.raiseFault b.core sp va .engWrite kind ptepa sys 0 0 30
      .next (r.1.updBlock block fun b => { b with saveFault := some r.2 })
    | .ok s2 ls =>
      let ks := ls.map Loc.key
      let s3 := s2.homeWrite b.cls.val ((ks.zip secs).flatMap fun x => writesFrom x.1 x.2.2.1)
      let s4 := (ks.zip secs).foldl (fun s x => if x.2.2.2 then s.setSecPoison x.1 true else s) s3
      .next (s4.leaveCore block)

/-- PREEMPT_SAVE_DONE (R393): a selected block is saved; with the last one of the selection BUSY clears. -/
def execPreemptSaveDone (fn : BitVec 5) (block : Nat) (s : State) : Out :=
  let b := s.block block
  if !(s.pmtOf fn.toNat).sel.contains block || !b.halted || b.saveFault.isSome || s.rasterPending block then .fault .eventCannotOccur
  else
    match b.life, s.giveArea block with
    | .resident, some s1 | .unplaced _, some s1 => heldToSlot s b.cls.val (s.saveBlock s1 block)
    | _, _ => .fault .eventCannotOccur

end Sys2Proof.Machine
end

