-- ==== Sys2Proof/Machine/Resume.lean ====
section
/-! DEFINITION. The resume of saved blocks (R147, R191, R346, R393): their waves and barriers, the Ferry's work and the engine
operations on the core that receives them. -/
namespace Sys2Proof.Machine

/-! ## What a saved block brings (R147) -/

/-- The ranges of an operation with the block that holds each: its own, or the receivers of a COPYM. -/
def EngOp.rangeOwners (o : EngOp) : List (Range × Nat) :=
  match o.recv with
  | [] => o.ranges.map fun r => (r, o.block)
  | rs => o.ranges.zip (o.block :: rs.map Prod.snd)

/-- Operations whose locks are not on any core: those of saved blocks. -/
def State.offCore (s : State) (o : EngOp) : Bool := o.life == .running && (s.block o.block).life == .saved

/-- The range-lock entries to be registered on the core of a block. -/
def State.locksNeeded (s : State) (bi : Nat) : Nat :=
  s.ops.foldl (fun n o => if s.offCore o then n + o.rangeOwners.countP fun x => x.2 == bi else n) 0

/-- The reservation entries and rays of a saved block. -/
def State.resvNeeded (s : State) (bi : Nat) : Nat := s.ops.countP fun o => o.block == bi && o.saved && o.held.isSome
def State.raysNeeded (s : State) (bi : Nat) : Nat :=
  s.ops.foldl (fun n o => if o.block == bi && o.saved && o.life == .running then n + o.rays.length else n) 0

/-! ## Barriers -/

/-- The cluster barriers of a gang follow its blocks: those of a cluster go to the cluster that receives the lowest-ranked block which
was on it (DEDUCED, log entry 35).  `moves` gives blocks in rank order with their new cores. -/
def State.moveBarriers (s : State) (moves : List (Nat × Nat)) : State :=
  moves.foldl (fun (acc : State × List (Nat × Nat × Nat)) m =>
    let b := s.block m.1
    let old := (b.grid, b.cbKey)
    if b.spawned || acc.2.any (fun k => k == old) then acc
    else
      (acc.1.updGrid b.grid fun g =>
          { g with cb := ((b.gang, clusterOf m.2), (s.grid b.grid).cbs b.cbKey) :: g.cb.filter fun e =>
              e.1 != (b.gang, clusterOf m.2) && (e.1 != b.cbKey || acc.2.any fun k => k == (b.grid, b.gang, clusterOf e.1.2)) },
       old :: acc.2)) (s, []) |>.1

/-! ## The restore (R60, R70, R193, R393, R394) -/

/-- The sectors of a saved block's context areas in the order in which the save engine wrote them. -/
def State.saveVas (s : State) (bi : Nat) : List Nat :=
  let sectors := fun (va n : Nat) => (List.range (n / 64)).map fun i => va + 64 * i
  sectors (s.block bi).area (s.block bi).saveSize
    ++ (s.block bi).waves.flatMap fun wi => sectors (s.wave wi).saveVa (s.wave wi).saveSize

/-- What the restore's reads of some blocks meet. -/
inductive RestoreRead where
  /-- The blocks with the locations of their sectors. -/
  | ok (s : State) (at_ : List (Nat × List Nat))
  /-- A fault record was joined or made, and a block waits on it. -/
  | fault (s : State)
  | pri (s : State)
  deriving DecidableEq, Repr

/-- Translate the saved sectors of some blocks on the cores that receive them, each with its block's class (R36, R40). -/
def State.restoreRead : State → List (Nat × Nat) → RestoreRead
  | s, [] => .ok s []
  | s, (bi, core) :: rest =>
    let b := s.block bi
    let sp : Space := ⟨(s.grid b.grid).vm, 0, true, false⟩
    match s.placeAll (clusterOf core) b.cls.val sp .engRead (s.saveVas bi) with
    | .pri s' => .pri s'
    | .fault va kind ptepa sys =>
      let r := s.raiseFault core sp va .engRead kind ptepa sys 0 0 30
      .fault (r.1.updBlock bi fun b => { b with saveFault := some r.2 })
    | .ok s1 ls =>
      let ks := ls.map Loc.key
      match (s1.l2TouchAll ks b.cls.val false).restoreRead rest with
      | .ok s2 x => .ok s2 ((bi, ks) :: x)
      | r => r

/-- A byte of an area by the locations of its sectors, a 32-bit word, a 64-bit word, and whether the sector of an offset is poisoned. -/
def State.savedByte (s : State) (ks : List Nat) (o : Nat) : Byte := s.byte (ks.getD (o / 64) 0 + o % 64)
def State.savedWord (s : State) (ks : List Nat) (i : Nat) : Word := .ofNat 32 (leNat ((span (4 * i) 4).map (s.savedByte ks)))
def State.savedDWord (s : State) (ks : List Nat) (i : Nat) : DWord := s.savedWord ks (2 * i + 1) ++ s.savedWord ks (2 * i)
def State.savedPoison (s : State) (ks : List Nat) (o : Nat) : Bool := s.secPoison (ks.getD (o / 64) 0)

/-- A barrier from its word (R296); a PHASE other than the one saved counts as a completion for those that wait. -/
def Barrier.ofWord (b : Barrier) (w : Word) : Barrier :=
  { b with e := bits (w.setWidth 64) 24 13, count := bits (w.setWidth 64) 12 1, phase := w.getLsbD 0
           turns := if w.getLsbD 0 = b.phase then b.turns else b.turns + 1 }

/-- The tag error record of two words. -/
def tagErrOf (w0 w1 : DWord) : Option TagErr :=
  if w0 = 0 && w1 = 0 then none else some ⟨bits w0 63 58, bits w0 57 54, bits w0 53 50, bits w1 55 0⟩

/-- A block as its save area gives it: the tensor table, the tags, its barriers, the tag error records, the scratchpad and the accumulator
allocation; the words of a poisoned sector are poisoned. -/
def Block.restored (b : Block) (s : State) (ks : List Nat) : Block :=
  let d := s.savedDWord ks
  let acc := 0x4000 + b.scrBytes
  { b with
    tens := Sparse.ofFn 0 64 fun t => (d (4 * t + 3) ++ d (4 * t + 2) ++ d (4 * t + 1) ++ d (4 * t) : BitVec 256)
    tensPoison := Sparse.ofFn false 64 fun t => s.savedPoison ks (32 * t)
    tags := d 256, tpend := d 257, terr := d 258
    bb := (List.range b.bb.length).map fun n => (b.bb.getD n {}).ofWord (s.savedWord ks (528 + n))
    tagErr := (List.range 64).filterMap fun t => (tagErrOf (d (384 + 2 * t)) (d (385 + 2 * t))).map fun e => (t, e)
    scratch := Sparse.ofFn 0 b.scrBytes fun o => s.savedByte ks (0x4000 + o)
    scrPoison := Sparse.ofFn false (b.scrBytes / 4) fun q => s.savedPoison ks (0x4000 + 4 * q)
    accum := Sparse.ofFn 0 (1024 * b.accUnits) fun q => s.savedWord ks (acc / 4 + q)
    accPoison := Sparse.ofFn false (1024 * b.accUnits) fun q => s.savedPoison ks (acc + 4 * q) }

/-- A wave as its ring save and state block give it (R193, R394): the ring, the slots, the nesting counters, EXITED, WSTATUS and every
register word; what the area holds of the frames, the split stack, the counters and the trap record stays as the device kept it (DESIGN
CHOICE, log entry 39). -/
def Wave.restored (w : Wave) (s : State) (ks : List Nat) : Wave :=
  if w.life == .ended then w
  else
    let n := 32 * w.ringN
    let w1 := (List.range n).foldl (fun w k => w.setReg k (s.savedWord ks k)) w
    let w2 := ((List.range 288).filter fun i => i != 9 && i != 19).foldl (fun w i =>
      (List.range 8).foldl (fun w j => w.editWord i j (s.savedDWord ks (n / 2 + i))) w) w1
    let st := s.savedDWord ks (n / 2 + 19)
    let sectors := (List.range (w.saveSize / 64)).filter fun k => s.savedPoison ks (64 * k)
    let bad := sectors.flatMap fun k => if 64 * k < 4 * n then span (16 * k) 16 else stateKeys (64 * k - 4 * n)
    { w2 with pwoob := st.getLsbD 0, deriv := st.getLsbD 1, poison := Sparse.setAll false [] (bad.map fun k => (k, true)) }

/-- The restore of a block from the sectors of its context areas: its save area, then each wave's. -/
def State.restoreBlock (s : State) (bi : Nat) (ks : List Nat) : State :=
  let b := s.block bi
  let s1 := s.setBlock bi (b.restored s ks)
  (b.waves.foldl (fun (x : State × List Nat) wi =>
    let w := s.wave wi
    (x.1.setWave wi (w.restored s x.2), x.2.drop (w.saveSize / 64))) (s1, ks.drop (b.saveSize / 64))).1

/-! ## Blocks -/

/-- A trapped wave joins the queue of its new cluster's service core; with no handler its block is killed (R395). -/
def State.rejoin (s : State) (wi : Nat) : State :=
  let w := s.wave wi
  let b := s.block w.block
  let cl := clusterOf b.core
  if w.life != .trapped then s
  else if (Sparse.get 0 s.svcImg (s.grid b.grid).vm : DWord).getLsbD 63 then
    { s with svcQueue := Sparse.set [] s.svcQueue cl (s.svcOf cl ++ [wi]) }
  else s.kill w.block Cause.noHandler

/-- A saved block goes on at a place: its waves with new positions and ages, their Ferry work, then the acquire of R119. -/
def State.resumeBlock (s : State) (bi core bslot scrBase quarter : Nat) (parts : List (Nat × Nat)) : State :=
  let b := s.block bi
  let jobs := b.waves.flatMap fun wi => (s.wave wi).jobs
  let s1 := s.updBlock bi fun b =>
    { b with life := .resident, halted := false, core := core, bslot := .ofNat 4 bslot, scrBase := scrBase, accQuarter := quarter }
  let s2 := (b.waves.zip parts).foldl (fun s x => s.updWave x.1 fun w =>
    { w with part := .ofNat 32 x.2.1, wslot := .ofNat 4 x.2.2, age := s.clk, young := false, jobs := [] }) s1
  let s3 := if jobs = [] then s2 else s2.addJobs core jobs
  b.waves.foldl State.rejoin (s3.acquire core .system)

/-! ## Operations -/

/-- Give the rays of an operation slots of its cluster's ray unit. -/
def State.placeRays (s : State) (i : Nat) : List Ray → State
  | [] => s
  | y :: ys =>
    match s.ops[i]? with
    | none => s
    | some o =>
      (s.updOp i fun o' => { o' with rays := o'.rays ++ [{ y with slot := (s.freeRaySlot (clusterOf o.core)).getD 0 }] }).placeRays i ys

/-- One operation of a resumed block: its locks are registered on the receiving cores, its pass is posted again (R346). -/
def State.resumeOp (s : State) (i : Nat) : State :=
  match s.ops[i]? with
  | none => s
  | some o =>
    let b := s.block o.block
    let g := s.grid b.grid
    let rs := o.rangeOwners.map fun x => (⟨(s.block x.2).core, x.2, x.1.dst, x.1.space == 2, x.1.base, x.1.size⟩ : EngRange)
    let s1 := s.updOp i fun o =>
      { o with saved := false, held := none, core := b.core, rays := [], recv := o.recv.map fun r => ((s.block r.2).core, r.2) }
    let s2 := s1.addLocks g.vm g.asid (o.tag.getD 0) i rs
    let s3 := match o.held with
      | some r => s2.post (clusterOf b.core) i r.cls r.opk r.nband r.cost r.rowprog
      | none => s2
    s3.placeRays i o.rays

/-- The operations of some resumed blocks in their issue order. -/
def State.resumeOps (s : State) (bs : List Nat) : State :=
  (List.range s.ops.length).foldl (fun s i =>
    if (s.ops[i]?).any fun o => o.life == .running && bs.contains o.block && (s.block o.block).life == .resident then s.resumeOp i else s) s

end Sys2Proof.Machine
end

