-- ==== Sys2Proof/Machine/Place.lean ====
section
/-! DEFINITION. The dispatcher (R158, R163-R166, R384-R387, R393): pending work in its rank, the dispatch calendar, placing
blocks, gangs, whole grids, resumed blocks and sailed waves, reservations, and the end of a block. -/
namespace Sys2Proof.Machine

/-! ## Pending work (R384) -/

/-- A unit of work: a new gang of a grid, a whole grid, a resumed gang (its saved blocks), a resumed sailed wave's block, or
a new block of a STAGE grid. -/
inductive Work where
  | gang (grid k : Nat)
  | whole (grid : Nat)
  | resume (grid : Nat) (blocks : List Nat)
  | stage (grid : Nat)
  deriving DecidableEq, Repr

def Work.grid : Work → Nat
  | .gang g _ | .whole g | .resume g _ | .stage g => g

/-- No work of a class of a grid is placed while a pre-emption of that scope is busy (R391). -/
def State.frozen (s : State) (gi cls : Nat) : Bool :=
  let g := s.grid gi
  s.pmt.any fun e => match e.2.act with
    | none => false
    | some (vm, k) => vm == g.vm && (k.isNone || k == some cls || k == some (recClass g.record))

/-- HOLD: saved blocks of a VM are not placed again (R391). -/
def State.held (s : State) (vm : Nat) : Bool := s.pmt.any fun e => e.2.hold && e.2.target e.1 == vm

/-- The saved blocks of a grid that await placement. -/
def State.savedOf (s : State) (gi : Nat) : List Nat :=
  if s.held (s.grid gi).vm then []
  else (List.range s.blocks.length).filter fun i => (s.block i).grid == gi && (s.block i).life == .saved && !(s.block i).svc

/-- The resumed work of a grid: saved blocks gang by gang, all at once for a grid with grid barriers (R158, R371, R393); a sailed
wave's block by itself.  What holds a block whose restore waits on a fault record waits with it. -/
def State.resumeWorks (s : State) (gi : Nat) : List Work :=
  let bs := s.savedOf gi
  let own := bs.filter fun i => !(s.block i).spawned
  let spawned := (bs.filter fun i => (s.block i).spawned).map fun i => [i]
  ((if own = [] then []
    else if recUsesGb (s.grid gi).record then [own]
    else ((own.map fun i => (s.block i).gang).eraseDups).map fun k => own.filter fun i => (s.block i).gang == k)
   ++ spawned).filterMap fun bs => if bs.any fun i => (s.block i).saveFault.isSome then none else some (.resume gi bs)

/-- The pending work of a grid in its order. -/
def State.worksOf (s : State) (gi : Nat) : List Work :=
  let g := s.grid gi
  if g.life != .active then []
  else s.resumeWorks gi
    ++ (if g.stopped then []
        else if recKind g.record = 2 then [.stage gi]
        else if recBlocks g.record ≤ g.placed then []
        else if recUsesGb g.record then [.whole gi]
        else [.gang gi (g.placed / recGangSize g.record)])

/-- The class of a unit of work: a block's, or its own for a resumed block of a sailed wave. -/
def State.workClass (s : State) : Work → Nat
  | .resume g bs => match bs with
    | b :: _ => (s.block b).cls.val
    | [] => recClass (s.grid g).record
  | w => recClass (s.grid w.grid).record

/-- The pending work of a class in its rank: higher PRIO, earlier acceptance, resumed first, ascending order (R384). -/
def State.pending (s : State) (cls : Nat) : List Work :=
  let gs := List.range s.grids.length
  let all := (List.range 8).reverse.flatMap fun p =>
    (gs.filter fun g => recPrio (s.grid g).record == p).flatMap s.worksOf
  all.filter fun w => s.workClass w == cls
/-- The pending work that no pre-emption keeps from being placed (R391). -/
def State.works (s : State) (cls : Nat) : List Work := (s.pending cls).filter fun w => !s.frozen w.grid cls

/-! ## Whether a unit fits (R158) -/

/-- The rooms of some cores. -/
def State.rooms (s : State) (cores : List Nat) : Rooms := cores.map fun c => (c, s.room c)

/-- What a saved block asks for: what it held (R158, R393), and the entries of its operations (R147). -/
def State.savedNeed (s : State) (bi : Nat) : Need :=
  let b := s.block bi
  { rank := b.rank, scr := b.scrUnits, acc := b.accUnits, accq := recAccq (s.grid b.grid).record
    rings := b.waves.map fun wi => (s.wave wi).ringN
    locks := s.locksNeeded bi, resv := s.resvNeeded bi, rays := s.raysNeeded bi }

/-- The VM whose pool holds a core (R168). -/
def State.poolOwner (s : State) (core : Nat) : Option Nat := (s.gov.find? fun e => e.2.held.contains core).map Prod.fst

/-- A plan: the blocks of a unit, by gang and rank or by number, with their places and, for new ones, their context areas. -/
structure Plan where
  work : Work
  spots : List (Nat × Nat × Spot)
  areas : List Nat
  deriving DecidableEq, Repr

/-- The range-lock entries of some saved blocks are free on the cores they would go to, and the reservation entries and ray slots in
their clusters (R147, DEDUCED, log entry 35). -/
def State.entriesFree (s : State) (ns : List Need) (spots : List Spot) : Bool :=
  (ns.zip spots).all fun x =>
    let here := ((ns.zip spots).filter fun y => y.2.core == x.2.core).map Prod.fst
    let cl := clusterOf x.2.core
    let near := ((ns.zip spots).filter fun y => clusterOf y.2.core == cl).map Prod.fst
    decide (here.foldl (fun a n => a + n.locks) ((s.core x.2.core).locks.countP Option.isSome) ≤ 96)
      && decide (near.foldl (fun a n => a + n.resv) (s.resvOf cl).length ≤ 16)
      && decide (near.foldl (fun a n => a + n.rays) (s.raySlots cl).length ≤ 4096)

/-- Spots of saved blocks by their number. -/
def resumeSpots (bs : List Nat) (spots : List Spot) : List (Nat × Nat × Spot) := (bs.zip spots).map fun x => (x.1, 0, x.2)

/-- A gang of needs on the range that begins at a core, none of whose cores satisfies `closed`. -/
def State.gangFit (s : State) (core bpc : Nat) (closed : Nat → Bool) (ns : List Need) : Option (List Spot) :=
  match s.rangeAt core (gangSpan bpc ns) with
  | none => none
  | some range => if range.any closed then none else (s.gangOn (s.rooms range) range bpc ns).map Prod.snd

/-- The saved blocks of a grid grouped by gang. -/
def State.byGang (s : State) (bs : List Nat) : List (List Nat) :=
  ((bs.map fun i => (s.block i).gang).eraseDups).map fun k => bs.filter fun i => (s.block i).gang == k

/-- Whether the governor lets a core start a block of its stage now (R168, R170). -/
def State.stageOpen (s : State) (gi core : Nat) : Bool :=
  let g := s.grid gi
  let v := s.govOf g.vm
  let n := recStage g.record
  let st : StageSt := Sparse.get {} v.stages n
  v.en && st.cores.contains core && !(v.moves.any fun m => m.core == core)
    && (s.queue g.vm (recInq g.record)).valid && decide (0 < (s.queue g.vm (recInq g.record)).occupancy)

/-- The blocks of a stage on a core with those of a new gang are at most BPC (R168). -/
def State.stageRoom (s : State) (gi : Nat) (spots : List Spot) : Bool :=
  spots.all fun x =>
    decide ((s.resident x.core).countP (fun i => (s.block i).grid == gi && !(s.block i).spawned) + spots.countP (fun y => y.core == x.core)
      ≤ recBpc (s.grid gi).record)

/-- A unit of work at the dispatch port of a core (R384): where its blocks would go.  A core that `closed` names, or that is held
for a governor's pool, takes none of it.  A pool that is not enabled places no block of its VM (R387). -/
def State.fitAt (s : State) (closed : Nat → Bool) (core : Nat) (w : Work) : Option Plan :=
  let gi := w.grid
  let g := s.grid gi
  let r := g.record
  let shut := fun c => closed c || (s.poolOwner c).isSome
  let first := (s.dieCores 0).head?
  match w with
  | .gang _ k =>
    let ns := recGang r
    match s.gangFit core (recBpc r) shut ns, s.allocate g.vm (ns.map fun _ => recUnits r) with
    | some spots, some areas => some ⟨w, (List.range ns.length).zip spots |>.map fun x => (k, x.1, x.2), areas⟩
    | _, _ => none
  | .whole _ =>
    if first != some core then none
    else match s.pack (recBpc r) (fun range => !range.any shut) (List.replicate (recGangs r) (recGang r)) s.allRooms,
        s.allocate g.vm (List.replicate (recBlocks r) (recUnits r)) with
    | some gangs, some areas =>
      some ⟨w, (List.range gangs.length).flatMap fun k =>
        let spots := gangs.getD k []
        (List.range spots.length).zip spots |>.map fun x => (k, x.1, x.2), areas⟩
    | _, _ => none
  | .resume _ bs =>
    let ns := bs.map s.savedNeed
    if (s.poolOf g.vm).isNone then none
    else if bs.any fun i => (s.block i).spawned then
      match s.gangFit core 1 shut (ns.map fun n => { n with rank := 0, accq := 0 }) with
      | some spots => if s.entriesFree ns spots then some ⟨w, resumeSpots bs spots, []⟩ else none
      | none => none
    else if recUsesGb r then
      if first != some core then none
      else match s.pack (recBpc r) (fun range => !range.any shut) ((s.byGang bs).map fun g => g.map s.savedNeed) s.allRooms with
        | some gangs => if s.entriesFree ns gangs.flatten then some ⟨w, resumeSpots (s.byGang bs).flatten gangs.flatten, []⟩ else none
        | none => none
    else
      let open' := if recKind r = 2 then fun c => closed c || (s.poolOwner c).any fun v => v != g.vm else shut
      match s.gangFit core (recBpc r) open' ns with
      | some spots => if s.entriesFree ns spots then some ⟨w, resumeSpots bs spots, []⟩ else none
      | none => none
  | .stage _ =>
    let ns := recGang r
    match s.gangFit core (recBpc r) (fun c => closed c || !s.stageOpen gi c) ns, s.allocate g.vm (ns.map fun _ => recUnits r) with
    | some spots, some areas =>
      if s.stageRoom gi spots then some ⟨w, ((List.range ns.length).zip spots).map fun (x : Nat × Spot) => (g.placed / recGangSize r, x.1, x.2), areas⟩
      else none
    | _, _ => none

/-- Where a unit stands in the order of its class. -/
def rankIn (ws : List Work) (w : Work) : Nat := ws.findIdx fun x => x == w

/-- The unit a reservation is for (R385). -/
def GangWait.isFor (x : GangWait) (w : Work) : Bool :=
  x.grid == w.grid && match w with
    | .gang _ k => x.unit == k
    | .whole _ => x.unit == 2 ^ 32
    | .resume _ bs => x.unit == 2 ^ 33 + bs.headD 0
    | .stage _ => false

/-- The cores that the reservation of a class closes to a unit: those reserved for a higher-ranked one (R385). -/
def State.closedTo (s : State) (cls : Nat) (ws : List Work) (w : Work) (core : Nat) : Bool :=
  (Sparse.get [] s.gangs cls).any fun x =>
    x.cores.contains core && !x.isFor w
      && match ws.find? fun v => x.isFor v with
        | some v => decide (rankIn ws v < rankIn ws w)
        | none => false

/-- The highest-ranked unit of a class that fits at a core (R384). -/
def State.bestAt (s : State) (cls core : Nat) : Option Plan :=
  let ws := s.pending cls
  (s.works cls).findSome? fun w => s.fitAt (s.closedTo cls ws w) core w

/-- Owner and borrower of the slot of the dispatch calendar (R62, R64). -/
def State.dispatchSlot (s : State) : Nat × Nat := s.calSlot 2

/-- What the dispatch port of a core places in this slot: the owner's work, else the borrower's. -/
def State.dispatchAt (s : State) (core : Nat) : Option Plan :=
  let ob := s.dispatchSlot
  match s.bestAt ob.1 core with
  | some p => some p
  | none => if ob.1 = ob.2 then none else s.bestAt ob.2 core

/-! ## Starting a block (R157, R119) -/

/-- The context areas of a block's waves, the first at a VA. -/
def waveAreas : Nat → List Nat → List Nat
  | _, [] => []
  | va, n :: t => va :: waveAreas (va + 65536 * n) t

/-- Start a new block of a grid at a place: its waves as R157 gives them, then the acquire of R119. -/
def State.startBlock (s : State) (gi : Nat) (x y z gang rank : Nat) (spot : Spot) (area : Nat) : State :=
  let g := s.grid gi
  let r := g.record
  let bi := s.blocks.length
  let w0 := s.waves.length
  let list := recWaveList r
  let ctxs := waveAreas (area + 65536 * blockUnits (recScr r) (recAcc r))
    (list.map fun e => waveUnits (recSpill r e.1) (recSplit r e.1) e.2.2)
  let mk := fun (i : Nat) =>
    let e := list.getD i (0, 0, 64)
    let at_ := spot.parts.getD i (0, 0)
    ({ block := bi, role := .ofNat 4 e.1, num := i, ridx := e.2.1, ring := .ofNat 7 (recRing r e.1), regs := argRegs g.args
       slotA := { valid := true, path := { mask := 0xFFFFFFFF, pc := .ofNat 64 (recEntry r + recEntoff r e.1) } }
       splitMax := recSplit r e.1, spillUnits := recSpill r e.1
       part := .ofNat 32 at_.1, wslot := .ofNat 4 at_.2, age := s.clk, ctx := ctxs.getD i 0 } : Wave)
  let blk : Block :=
    { grid := gi, x := x, y := y, z := z, gang := gang, rank := rank, core := spot.core, bslot := .ofNat 4 spot.bslot
      waves := span w0 list.length, cls := .ofNat 4 (recClass r), bb := (List.range 16).map (recBb r)
      scrBase := spot.scrBase, scrUnits := recScr r, accUnits := recAcc r, accQuarter := spot.quarter, area := area }
  { s with
    blocks := s.blocks ++ [blk]
    waves := s.waves ++ (List.range list.length).map mk }.acquire spot.core .system

/-- Place one block of a plan. -/
def State.placeOne (s : State) (w : Work) (p : Nat × Nat × Spot) (area : Nat) : State :=
  let r := (s.grid w.grid).record
  match w with
  | .gang .. | .whole .. =>
    let pos := blockPos r p.1 p.2.1
    (s.startBlock w.grid pos.1 pos.2.1 pos.2.2 p.1 p.2.1 p.2.2 area).updGrid w.grid fun g => { g with placed := g.placed + 1 }
  | .stage .. =>
    let n := (s.grid w.grid).placed
    (s.startBlock w.grid (n % 65535) 0 0 p.1 p.2.1 p.2.2 area).updGrid w.grid fun g => { g with placed := g.placed + 1 }
  | .resume .. => s.resumeBlock p.1 p.2.2.core p.2.2.bslot p.2.2.scrBase p.2.2.quarter p.2.2.parts

/-- Carry out a plan, resumed blocks having been restored from the sectors of their context areas; a reservation made for its unit ends. -/
def State.carryOut (s : State) (p : Plan) (at_ : List (Nat × List Nat)) : State :=
  let s := at_.foldl (fun s x => s.restoreBlock x.1 x.2) s
  let cls := s.workClass p.work
  let s0 := match p.work with
    | .resume .. => s.moveBarriers (p.spots.map fun (x : Nat × Nat × Spot) => (x.1, x.2.2.core))
    | _ => s
  let s1 := (List.range p.spots.length).foldl (fun s i =>
    match p.spots[i]? with
    | some x => s.placeOne p.work x (p.areas.getD i 0)
    | none => s) s0
  let s2 := match p.work with
    | .resume _ bs => s1.resumeOps bs
    | _ => s1
  { s2 with gangs := Sparse.set [] s2.gangs cls ((Sparse.get [] s2.gangs cls).filter fun x => !x.isFor p.work) }

/-- The blocks that a plan resumes with the cores that receive them. -/
def Plan.resumes (p : Plan) : List (Nat × Nat) :=
  match p.work with
  | .resume .. => p.spots.map fun x => (x.1, x.2.2.core)
  | _ => []

/-- BLOCK_PLACE (R384): the dispatch port of a core places one unit of work. -/
def execBlockPlace (core : Nat) (s : State) : Out :=
  match s.dispatchAt core with
  | none => .fault .eventCannotOccur
  | some p =>
    match s.restoreRead p.resumes with
    | .ok s' at_ => .next (s'.carryOut p at_)
    | .fault s' => .next s'
    | .pri s' => waited s s'

/-! ## Reservations (R385) -/

/-- A gang's place in the table of reservations. -/
def Work.unit : Work → Option Nat
  | .gang _ k => some k
  | .whole _ => some (2 ^ 32)
  | .resume _ bs => some (2 ^ 33 + bs.headD 0)
  | .stage _ => none

/-- Whether a unit fits at some dispatch port. -/
def State.fitsSomewhere (s : State) (w : Work) : Bool :=
  (List.range 8).any fun d => (s.dieCores d).any fun c => (s.fitAt (fun _ => false) c w).isSome

/-- The highest-ranked unit of a class that can wait for a range. -/
def State.topGang (s : State) (cls : Nat) : Option Work := (s.pending cls).find? fun w => w.unit.isSome

/-- Keep the table of a class: a reservation stands while its unit is pending, and the highest-ranked unit is watched from the clk at which
it was first found to fit nowhere (R385). -/
def State.watchClass (s : State) (cls : Nat) : List GangWait :=
  let old := Sparse.get [] s.gangs cls
  let stand := old.filter fun x => x.cores != [] && (s.pending cls).any x.isFor
  match s.topGang cls with
  | none => stand
  | some w =>
    if stand.any (fun x => x.isFor w) || s.fitsSomewhere w then stand
    else stand ++ [(old.find? fun x => x.isFor w).getD ⟨w.grid, w.unit.getD 0, s.clk, []⟩]

/-- Keep the table of every class. -/
def State.watchGangs (s : State) : State :=
  if (s.grids.any fun g => g.life == .active) || s.gangs != [] then
    (List.range 4).foldl (fun s c => { s with gangs := Sparse.set [] s.gangs c (s.watchClass c) }) s
  else s

/-- The range a unit reserves: the cores of one die with the fewest resident blocks, the lowest die and first core on a tie; for a
whole grid every core (R385). -/
def State.targetOf (s : State) (w : Work) : List Nat :=
  let r := (s.grid w.grid).record
  let all := (List.range 8).flatMap s.dieCores
  let whole := match w with
    | .whole _ => true
    | .resume _ bs => recUsesGb r && !bs.any fun i => (s.block i).spawned
    | _ => false
  if whole then all
  else
    let n := match w with
      | .resume _ bs => if bs.any fun i => (s.block i).spawned then 1 else gangSpan (recBpc r) (bs.map s.savedNeed)
      | _ => recGangCores r
    let load := fun (cs : List Nat) => cs.foldl (fun a c => a + (s.resident c).length) 0
    let ranges := (List.range 8).flatMap fun d => s.dieRanges d n
    ranges.foldl (fun best x => if best = [] then x else if load x < load best then x else best) []

/-- GANG_RESERVE (R385): the highest-ranked pending gang of a class has fitted nowhere for 4,096 clk. -/
def execGangReserve (cls : BitVec 2) (s : State) : Out :=
  let xs := Sparse.get [] s.gangs cls.toNat
  match s.topGang cls.toNat with
  | some w =>
    match xs.find? fun x => x.isFor w with
    | some x =>
      if x.cores != [] || decide (s.clk < x.since + 4096) then .fault .eventCannotOccur
      else .next { s with gangs := Sparse.set [] s.gangs cls.toNat (xs.map fun y => if y = x then { x with cores := s.targetOf w } else y) }
    | none => .fault .eventCannotOccur
  | none => .fault .eventCannotOccur

/-! ## Sailed waves (R164-R166) -/

/-- SAILED_WAVE_PLACE: a sailed berth's wave is placed on the berth's core as a block of its own. -/
def execSailedWavePlace (idx : Nat) (s : State) : Out :=
  match s.sailed[idx]? with
  | none => .fault .eventCannotOccur
  | some (core, i) =>
    match (s.core core).berths.find? fun b => b.1 == i with
    | none => .fault .eventCannotOccur
    | some (_, b) =>
      let g := s.grid b.grid
      let r := g.record
      let need : Need := { rings := [ringSize (recBring r b.desc)] }
      if s.frozen b.grid (recBclass r b.desc) || s.fenced core then .fault .eventCannotOccur
      else match placeBlock (s.rooms [core]) core need, s.allocate g.vm [s.berthUnits b] with
        | some (_, spot), some [area] =>
          let at_ := spot.parts.getD 0 (0, 0)
          let w := { s.berthWave b s.blocks.length with
            part := .ofNat 32 at_.1, wslot := .ofNat 4 at_.2, ctx := area + 65536 * blockUnits 0 0 }
          let blk := { s.berthBlock b core s.waves.length with bslot := .ofNat 4 spot.bslot, area := area }
          let s1 := { s with blocks := s.blocks ++ [blk], waves := s.waves ++ [w], sailed := s.sailed.eraseIdx idx }
          let s2 := s1.updCore core fun k => { k with berths := k.berths.filter fun x => x.1 != i }
          .next (s2.acquire core .system)
        | _, _ => .fault .eventCannotOccur

/-! ## The end of a block (R148, R170) -/

/-- A block has neither ended nor been killed. -/
def Block.stands (b : Block) : Bool :=
  match b.life with
  | .resident | .saved | .unplaced _ => true
  | _ => false

/-- The moves of a governor are complete when the last of the blocks asked to end has ended, wherever it was placed again meanwhile
(R170). -/
def State.settleMoves (s : State) (vm : Nat) : State :=
  let v := s.govOf vm
  let ended := fun (m : StageMove) => m.blocks.all fun i => !(s.block i).stands
  let move := fun (v : GovSt) (m : StageMove) =>
    let d : StageSt := Sparse.get {} v.stages m.donor
    let v1 := { v with stages := Sparse.set {} v.stages m.donor { d with cores := d.cores.filter fun c => c != m.core } }
    let t : StageSt := Sparse.get {} v1.stages m.target
    { v1 with stages := Sparse.set {} v1.stages m.target { t with cores := t.cores ++ [m.core] } }
  let done := v.moves.filter ended
  if done = [] then s
  else s.setGov vm { done.foldl move v with moves := v.moves.filter fun m => !ended m }

/-- Cores that have become free join the pool, up to POOL, in ascending order (R168); a stopped governor's pool is released when its
last STAGE grid has ended (R171). -/
def State.grantPool (s : State) (vm : Nat) : State :=
  let v := s.govOf vm
  if !v.en then
    if s.grids.any fun g => g.life == .active && g.vm == vm && recKind g.record == 2 then s
    else s.setGov vm { v with held := [], moves := [], stages := v.stages.map fun e => (e.1, { e.2 with cores := [] }) }
  else
    let free := ((List.range 8).flatMap s.dieCores).filter fun c =>
      (s.poolOwner c).isNone && !s.fenced c && s.resident c == []
    s.setGov vm { v with held := v.held ++ free.take (v.pool - v.held.length) }

/-- After a core has become freer: moves and grants of every governor. -/
def State.afterFree (s : State) : State :=
  (s.gov.map Prod.fst).foldl (fun s vm => (s.settleMoves vm).grantPool vm) s

/-- BLOCK_END (R148, R119): every wave has ended and every operation has completed; the end is a release at system scope. -/
def execBlockEnd (block : Nat) (s : State) : Out :=
  let b := s.block block
  if b.life != .resident || !b.ending || b.halted || b.svc
      || s.ops.any (fun o => o.block == block && o.life == .running) then .fault .eventCannotOccur
  else
    let s1 := s.release b.core b.cls.val .system
    let s2 := (s1.freeBlock block).updBlock block fun b => { b with life := .ended, ending := false }
    let s3 := s2.updGrid b.grid fun g => { g with ended := if b.spawned then g.ended else g.ended + 1 }
    .next s3.afterFree

end Sys2Proof.Machine
end

