-- ==== Sys2Proof/Machine/Fabric.lean ====
section
/-! DEFINITION. The Timetable (R61-R64), the network's flow control (R66), the class idle flags (R56), the HBM channels (R68-R70)
and the compressor's SYNC (R100). -/
namespace Sys2Proof.Machine

/-! ## The Timetable (R61-R64) -/

/-- TTCTL_COMMIT: COMMIT is written 1; without effect while PEND = 1. -/
def execTtctlCommit (s : State) : Out :=
  if s.tt.pend then .next s else .next { s with tt := { s.tt with pend := true, since := s.clk } }

/-- A slot 0 has come since the COMMIT. -/
def State.copyDue (s : State) : Bool := s.tt.pend && decide (s.tt.since / 64 < s.clk / 64)

/-- Every shadow comes into force at once. -/
def State.copyShadows (s : State) : State := { s with tt := { s.tt with force := s.tt.shadow, pend := false } }

/-- TIMETABLE_COPY: the slot 0 after a COMMIT.  The passing of time brings it as soon as it is due. -/
def execTimetableCopy (s : State) : Out := if s.copyDue then .next s.copyShadows else .fault .eventCannotOccur

/-! ## The network (R66) -/

/-- The receiving end of a class on a link. -/
def State.linkOf (s : State) (link cls : Nat) : LinkSt := Sparse.get {} s.noc (4 * link + cls)
def State.setLink (s : State) (link cls : Nat) (x : LinkSt) : State := { s with noc := Sparse.set {} s.noc (4 * link + cls) x }

/-- The flits that the replay buffer of a link holds, of every class. -/
def State.replayed (s : State) (link : Nat) : Nat := (List.range 4).foldl (fun n c => n + (s.linkOf link c).replay) 0

/-- The slots of the NoC calendar in force that a class may use from one clk to another, at most eight calendars of them: one flit leaves
a class buffer in each. -/
def State.slotsSince (s : State) (cls from_ to_ : Nat) : Nat :=
  (List.range (min (to_ - from_) 512)).countP fun i => { s with clk := from_ + i }.slotFor 0 cls

/-- What a flit that arrives makes of its class: a new one, or one of those sent again, is accepted, or discarded where its CRC is wrong, its
class buffer full, or a flit before it was discarded; until it is accepted the replay buffer holds it. -/
def LinkSt.arrive (x : LinkSt) (crcOk : Bool) : LinkSt :=
  let again := x.resend != 0
  if x.retry || !crcOk || 8 ≤ x.held then
    { x with retry := true, resend := x.resend - 1, replay := if again then x.replay else x.replay + 1 }
  else { x with held := x.held + 1, accepted := x.accepted + 1, resend := x.resend - 1, replay := if again then x.replay - 1 else x.replay }

/-- NOC_FLIT_RECEIVE: in a slot of its class a flit arrives on a link, for which the replay buffer of 64 has room; `left` flits have left
the class buffer since the last one came, each in a slot of its class (R66). -/
def execNocFlitReceive (link : Nat) (cls : BitVec 2) (left : Nat) (crcOk : Bool) (s : State) : Out :=
  let x := s.linkOf link cls.toNat
  if x.held < left || (x.resend = 0 && 64 ≤ s.replayed link) || !s.slotFor 0 cls.toNat || s.slotsSince cls.toNat x.leftAt s.clk < left then
    .fault .eventCannotOccur
  else .next (s.setLink link cls.toNat ({ x with held := x.held - left, leftAt := s.clk }.arrive crcOk))

/-- NOC_RETRY: the sender resends from the flit that the retry names; the replay buffer holds the flits until they are accepted. -/
def execNocRetry (link : Nat) (cls : BitVec 2) (s : State) : Out :=
  let x := s.linkOf link cls.toNat
  if !x.retry then .fault .eventCannotOccur else .next (s.setLink link cls.toNat { x with retry := false, resend := x.replay })

/-! ## The L2 (R56) -/

/-- CLASS_IDLE: a class has allocated no line in a die's L2 for 4,096 clk, and its idle flag says so.  What R57 asks is whether it is
idle at the clk, which `L2St.isIdle` says whenever this step comes. -/
def execClassIdle (die : BitVec 3) (cls : BitVec 2) (s : State) : Out :=
  let i := die.toNat * 4 + cls.toNat
  if Sparse.get false s.l2.idle i || !s.l2.isIdle s.clk die.toNat cls.toNat then .fault .eventCannotOccur
  else .next { s with l2 := { s.l2 with idle := Sparse.set false s.l2.idle i true } }

/-! ## HBM (R68-R70) -/

/-- The L2 holds the sector of a location, so that an error in HBM does not reach it. -/
def State.shielded (s : State) (k : Nat) : Bool :=
  s.l2.lines.any fun e => e.loc == k / 256 * 256 && (e.valid.getLsbD (k / 64 % 4) || (!e.plain && e.valid != 0))

/-- PATROL_SCRUB: a granule is read in a slot that BG may use (R68): outcome 0 finds no error, 1 a corrected one, which is counted and
written back, 2 an uncorrectable one, which stays in the granule as poison (R69).  An error that the granule already holds is what the
scrub finds. -/
def execPatrolScrub (die : BitVec 3) (granule : Nat) (outcome : BitVec 2) (s : State) : Out :=
  let k := die.toNat * 2 ^ 37 + 32 * granule
  if 2 ^ 32 ≤ granule || !s.present k || outcome.toNat = 3 || !s.slotFor 1 3 then .fault .eventCannotOccur
  else if s.granuleErr k ≠ 0 && s.granuleErr k ≠ outcome.toNat then .fault .eventCannotOccur
  else if outcome.toNat = 0 then .next s
  else if outcome.toNat = 1 then .next ((s.countHbm k).setGranuleErr k 0)
  else if s.shielded k then .next (((s.logError 0x10 3 (k / 2 ^ 37) (s.channelOf k % 64) 31 (.ofNat 64 (paOfKey k))).setGranuleErr k 2))
  else .next ((s.uncorrectable k).setGranuleErr k 2)

/-- HBM_REFRESH: a channel in service is refreshed; refresh is not slotted (R68).  A retired channel serves no line (R72). -/
def execHbmRefresh (die : BitVec 3) (channel : BitVec 6) (s : State) : Out :=
  if s.chRetired.contains (die.toNat, channel.toNat) then .fault .eventCannotOccur else
  let c := die.toNat * 64 + channel.toNat
  .next (s.setHbm c { s.hbmOf c with refreshed := s.clk })

/-! ## The compressor (R100) -/

/-- CMPCTL_SYNC: SYNC is written 1. -/
def execCmpctlSync (s : State) : Out := .next { s with cmp := { s.cmp with busy := true } }

/-- CMPCTL_SYNC_DONE: every cached header and map entry has been dropped. -/
def execCmpctlSyncDone (s : State) : Out :=
  if !s.cmp.busy then .fault .eventCannotOccur else .next { s with cmp := { s.cmp with cached := [], busy := false } }

end Sys2Proof.Machine
end

