-- ==== Sys2Proof/Machine/Governor.lean ====
section
/-! DEFINITION. The stage governor (R167-R171): enabling and disabling it, and its evaluations. -/
namespace Sys2Proof.Machine

/-- Occupancy, HIWAT and LOWAT of the input queue of a stage's grid. -/
def State.stageQueue (s : State) (vm gi : Nat) : Nat × Nat × Nat :=
  let q := s.queue vm (recInq (s.grid gi).record)
  (q.occupancy, q.hiwat, q.lowat)

/-- A move from or to a stage is in progress: evaluations skip the stage (R170). -/
def GovSt.moving (v : GovSt) (n : Nat) : Bool := v.moves.any fun m => m.target == n || m.donor == n

def GovSt.stage (v : GovSt) (n : Nat) : StageSt := Sparse.get {} v.stages n
def GovSt.setStage (v : GovSt) (n : Nat) (x : StageSt) : GovSt := { v with stages := Sparse.set {} v.stages n x }

/-- The lowest pool core that no stage holds. -/
def GovSt.unassigned (v : GovSt) : Option Nat :=
  (v.held.filter fun c => !v.stages.any fun e => e.2.cores.contains c).foldl (fun m c => match m with
    | none => some c
    | some a => some (min a c)) none

/-- The stages the governor evaluates: MAXC is not 0 and the stage has an active grid. -/
def State.govStages (s : State) (vm : Nat) : List (Nat × Nat) :=
  (List.range 8).filterMap fun n =>
    if ((s.govOf vm).stage n).maxc = 0 then none else (s.stageGrid vm n).map fun gi => (n, gi)

/-- The donor for a stage: below LOWAT, above MINC, no move in progress; the lowest occupancy, then the lower number. -/
def State.donorFor (s : State) (vm n : Nat) : Option Nat :=
  let v := s.govOf vm
  let ok := (s.govStages vm).filter fun d =>
    let q := s.stageQueue vm d.2
    d.1 != n && decide (q.1 < q.2.2) && decide ((v.stage d.1).minc < (v.stage d.1).cores.length) && !v.moving d.1
  (ok.foldl (fun (m : Option (Nat × Nat)) d =>
    let o := (s.stageQueue vm d.2).1
    match m with
    | none => some (d.1, o)
    | some a => if o < a.2 then some (d.1, o) else m) none).map Prod.fst

/-- RETREQ is set in some blocks. -/
def State.askBlocks (s : State) (bs : List Nat) : State :=
  bs.foldl (fun s i => s.updBlock i fun b => { b with retreq := true }) s
/-- The blocks of a grid that have not ended, those of its sailed waves among them: they carry its stage (R165). -/
def State.stageBlocks (s : State) (gi : Nat) : List Nat :=
  (List.range s.blocks.length).filter fun i => (s.block i).grid == gi && (s.block i).stands

/-- One stage of an evaluation (R169, R170). -/
def State.evaluate (s : State) (vm n gi : Nat) : State :=
  let v := s.govOf vm
  let q := s.stageQueue vm gi
  if q.2.1 = 0 || q.1 ≤ q.2.1 || (v.stage n).maxc ≤ (v.stage n).cores.length || v.moving n then s
  else match v.unassigned with
    | some c => s.setGov vm (v.setStage n { v.stage n with cores := (v.stage n).cores ++ [c] })
    | none =>
      match s.donorFor vm n with
      | none => s
      | some d =>
        let c := (v.stage d).cores.foldl max 0
        let bs := match s.stageGrid vm d with
          | some g => (s.stageBlocks g).filter fun i => (s.block i).life == .resident && (s.block i).core == c
          | none => []
        ((s.askBlocks bs).setGov vm { v with moves := v.moves ++ [⟨c, d, n, bs⟩] }).settleMoves vm

/-- GOVERNOR_EVALUATION (R169). -/
def execGovernorEvaluation (fn : BitVec 5) (s : State) : Out :=
  let vm := fn.toNat
  let v := s.govOf vm
  if !v.en || decide (s.clk < v.last + 64 * max 1 v.period) then .fault .eventCannotOccur
  else
    let s1 := (s.govStages vm).foldl (fun s e => s.evaluate vm e.1 e.2) s
    .next (s1.setGov vm { s1.govOf vm with last := s.clk })

/-- GOVCTL_ENABLE (R167): POOL is written only while EN = 0. -/
def execGovctlEnable (fn : BitVec 5) (val : DWord) (s : State) : Out :=
  let v := s.govOf fn.toNat
  if 17 ≤ fn.toNat || !val.getLsbD 63 then .fault .eventCannotOccur
  else
    .next (s.setGov fn.toNat
      { v with en := true, pool := if v.en then v.pool else bits val 39 32, period := bits val 31 16
               last := if v.en then v.last else s.clk })

/-- GOVCTL_DISABLE (R171): every stage block is asked to end, and no block of a STAGE grid is launched from then on. -/
def execGovctlDisable (fn : BitVec 5) (val : DWord) (s : State) : Out :=
  let vm := fn.toNat
  let v := s.govOf vm
  if 17 ≤ vm || val.getLsbD 63 then .fault .eventCannotOccur
  else
    let s0 := s.setGov vm { v with en := false, pool := if v.en then v.pool else bits val 39 32, period := bits val 31 16 }
    let gs := (List.range s.grids.length).filter fun i =>
      (s.grid i).life == .active && (s.grid i).vm == vm && recKind (s.grid i).record == 2
    .next (gs.foldl (fun s i => (s.askBlocks (s.stageBlocks i)).updGrid i fun g => { g with stopped := true }) s0)

end Sys2Proof.Machine
end

