-- ==== Sys2Proof/Machine/Service.lean ====
section
/-! DEFINITION. The service cores (R144, R213, R395, R399, R414, R415): starting a handler for the next trapped wave, and what the
handler's writes to its windows bring about. -/
namespace Sys2Proof.Machine

/-! ## Starting a handler (R414) -/

/-- The limits of a handler record, and what R155 would reject. -/
def handlerBad (va : Nat) (r : List DWord) : Bool :=
  va % 64 != 0 || recVersion r != 1 || recBad r || recKind r != 0
    || recWaves r 0 != 1 || recWaves r 1 != 0 || recWaves r 2 != 0 || recWaves r 3 != 0
    || decide (16 < recScr r) || recAcc r != 0 || decide (60 < recArgw r)

/-- Read bytes in a VM's context space for a cluster's service core; none where translation fails or a byte is poisoned. -/
def State.svcFetch (s : State) (cl vm va n : Nat) : HubRead :=
  if n = 0 then .ok s []
  else match s.placeAll cl 3 ⟨vm, 0, true, false⟩ .engRead (span va n) with
    | .fault .. => .fail s
    | .pri s' => .pri s'
    | .ok s' ls =>
      let ks := ls.map Loc.key
      if ks.any s'.secPoison then .fail s' else .ok (s'.l2TouchAll ks 3 false) (s'.bytesAt ks)

/-- Two registers that hold a VA. -/
def vaRegs (n va : Nat) : List (Nat × Word) := [(kKey n, .ofNat 32 va), (kKey (n + 1), .ofNat 32 (va / 2 ^ 32))]

/-- The handler of a trapped wave runs from here: a block of one wave on the service core. -/
def State.beginHandler (s : State) (cl wi vm : Nat) (r : List DWord) (args : List Word) (pw : List (DWord × Nat)) (area : Nat) :
    State :=
  let gi := s.grids.length
  let bi := s.blocks.length
  let hi := s.waves.length
  let g : Grid := { life := .ended, vm := vm, record := r, args := args, pw := pw, placed := 1, held := [s.mem] }
  let b : Block :=
    { grid := gi, core := 4 * cl, waves := [hi], cls := .ofNat 4 (recClass r), bb := (List.range 16).map (recBb r)
      scrUnits := recScr r, accQuarter := 4 * cl, area := area, svc := true }
  let regs := vaRegs 0 (waveWinVa cl) ++ vaRegs 2 (inspectVa cl)
    ++ (List.range args.length).map fun i => (kKey (4 + i), args.getD i 0)
  let w : Wave :=
    { block := bi, ring := .ofNat 7 (recRing r 0), regs := Sparse.setAll 0 [] regs
      slotA := { valid := true, path := { mask := 0xFFFFFFFF, pc := .ofNat 64 (recEntry r + recEntoff r 0) } }
      splitMax := recSplit r 0, spillUnits := recSpill r 0, age := s.clk, ctx := area + 65536 * blockUnits (recScr r) 0 }
  let v := s.svcAt cl
  { (s.updWave wi fun w => { w with life := .handled }) with
    grids := s.grids ++ [g], blocks := s.blocks ++ [b], waves := (s.waves.set wi { s.wave wi with life := .handled }) ++ [w]
    svc := Sparse.set {} s.svc cl { v with handled := some wi, block := bi, cmd := none, clears := [], selects := [] } }

/-- The record that a VM's SVCIMG names is kept as it was read, for the attestation report (R410). -/
def State.keepRecord (s : State) (vm va : Nat) (bs : List Byte) : State :=
  { s with svcRead := Sparse.set [] s.svcRead (svcKey vm va) bs }

/-- SERVICE_HANDLER_START (R395, R414): the service core takes the first wave of its queue; a record that cannot be used kills the
block. -/
def execServiceHandlerStart (cluster : Nat) (s : State) : Out :=
  match s.svcOf cluster, (s.svcAt cluster).handled with
  | wi :: rest, none =>
    let b := s.block (s.wave wi).block
    let vm := (s.grid b.grid).vm
    let img : DWord := Sparse.get 0 s.svcImg vm
    let va := bits img 55 2 * 4
    let s0 := { s with svcQueue := Sparse.set [] s.svcQueue cluster rest }
    let bad := fun (s : State) => Host.Outcome.next (s.kill (s.wave wi).block Cause.noHandler)
    if b.halted then .fault .eventCannotOccur
    else if !img.getLsbD 63 then bad s0
    else match s0.svcFetch cluster vm va 256 with
      | .pri s' => waited s s'
      | .fail s' => bad s'
      | .ok s1 bs =>
        let r := dwords bs
        let s1 := s1.keepRecord vm va bs
        if handlerBad va r then bad s1
        else match s1.svcFetch cluster vm (recArgs r) (4 * recArgw r) with
          | .pri s' => waited s s'
          | .fail s' => bad s'
          | .ok s2 args =>
            match s2.svcFetch cluster vm (recPwtab r) (if recPwmask r = 0 then 0 else 256) with
            | .pri s' => waited s s'
            | .fail s' => bad s'
            | .ok s3 tab =>
              let pw := pwBindings tab
              if (List.range 16).any fun n => recPwmask r / 2 ^ n % 2 == 1 && bits (pw.getD n (0, 0)).1 3 0 != 0 then bad s3
              else match s3.allocate vm [recUnits r] with
                | some [area] => .next (s3.beginHandler cluster wi vm r (words32 args) pw area)
                | _ => .fault .eventCannotOccur
  | _, _ => .fault .eventCannotOccur

/-! ## Commands (R399, R414) -/

/-- A handler issues nothing further while something it wrote to its windows is to be carried out. -/
def State.handlerWaits (s : State) (cl : Nat) : Bool :=
  let v := s.svcAt cl
  v.cmd.isSome || v.clears != [] || v.selects != []

/-- The instructions a handler may not execute (R414). -/
def handlerForbids : Instr → Bool
  | .copy .. | .copym .. | .gather .. | .coll .. | .qenq .. | .qdeq .. | .qstat .. | .spawn .. | .lnch .. | .trace .. | .matev ..
  | .vemit .. | .barArrive .. | .barWait .. | .barSync .. | .osclook .. | .oscwait .. | .oscfill .. | .oscinv .. | .osctick ..
  | .oscprov .. => true
  | .tdef .. | .tqry .. | .tmma .. | .tmmd .. | .tvmm .. | .tmms .. | .tzero .. | .taccld .. | .taccst .. | .tfft .. | .tift .. | .xfm .. | .xchain ..
  | .tabld .. => true
  | _ => false

/-- The wave that a cluster's service core handles while a command stands, once its stores before the command are carried out. -/
def State.commanded (s : State) (cl n : Nat) : Option Nat :=
  let v := s.svcAt cl
  if v.cmd == some n && v.clears == [] && v.selects == [] then v.handled else none

/-- The split stack as the context area holds it, for SCOUNT entries (R211, R213). -/
def State.splitStack (s : State) (ks : List (Nat × Nat)) : List Path := ks.map fun k => pathOf (s.word64 k.1) (s.word64 k.2)

/-- RESUME (R213, R399): the split stack is read back, the checks are made, and the wave continues. -/
def execResume (cluster : Nat) (s : State) : Out :=
  match s.commanded cluster 1 with
  | none => .fault .eventCannotOccur
  | some wi =>
    let w := s.wave wi
    if w.fwait then .fault .eventCannotOccur
    else if w.splitMax < w.split.length then .next ((s.endHandler cluster).kill w.block Cause.resumeInvalid)
    else
      let vas := (List.range w.split.length).map w.splitVa
      match s.ferryPlace wi .refill (vas ++ vas.map (· + 8)) with
      | .fault s' => .next s'
      | .pri s' => waited s s'
      | .ok s' ks =>
        let n := w.split.length
        let s1 := s'.l2TouchAll ks (s'.block w.block).cls.val false
        let w1 := { s1.wave wi with split := s1.splitStack ((ks.take n).zip (ks.drop n)) }
        .next (((s1.setWave wi w1).endHandler cluster).returnFromTrap wi)

/-- KILLWAVE (R399): every launched lane that has not exited exits, with the effects of R206 and R161. -/
def execKillwave (cluster : Nat) (s : State) : Out :=
  match s.commanded cluster 2 with
  | none => .fault .eventCannotOccur
  | some wi =>
    let s1 := s.endHandler cluster
    let w := { s1.wave wi with life := .running, trap := none }
    .next (s1.exitFrom wi w (w.launched &&& ~~~ w.exited))

/-- KILLBLOCK (R399): the block is killed with KILLED; a value that is no command kills it with NO_HANDLER (R414). -/
def execKillblock (cluster : Nat) (s : State) : Out :=
  match (s.svcAt cluster).cmd with
  | none => .fault .eventCannotOccur
  | some n =>
    match s.commanded cluster n with
    | none => .fault .eventCannotOccur
    | some wi =>
      if n = 1 || n = 2 || n = 4 then .fault .eventCannotOccur
      else .next (s.kill (s.wave wi).block (if n = 3 then Cause.killed else Cause.noHandler))

/-- WINDOW_WSYNC (R304, R414): command 4 is done once the Ferry has performed the trapped wave's work. -/
def execWindowWsync (cluster : Nat) (s : State) : Out :=
  match s.commanded cluster 4 with
  | none => .fault .eventCannotOccur
  | some wi =>
    if (s.core (s.block (s.wave wi).block).core).jobsOf wi != [] then .fault .eventCannotOccur
    else .next (s.setSvc cluster { s.svcAt cluster with cmd := none })

/-! ## The inspection window (R415) -/

/-- RANGE_LOCK_ENTRY_CLEAR (R144): V = 0 written in an entry; it goes when its block has been killed, and the write is ignored
otherwise. -/
def execRangeLockEntryClear (core entry : Nat) (s : State) : Out :=
  let cl := clusterOf core
  let v := s.svcAt cl
  if !v.clears.contains (core % 4, entry) then .fault .eventCannotOccur
  else
    let s1 := s.setSvc cl { v with clears := v.clears.erase (core % 4, entry) }
    match (s1.core core).locks.getD entry none with
    | none => .next s1
    | some k =>
      let dead := match (s1.block (((s1.ops[k.op]?).map EngOp.block).getD k.block)).life with
        | .killed _ => true
        | _ => false
      .next (if dead then s1.updCore core fun c => { c with locks := trimLocks (c.locks.set entry none) } else s1)

/-- LANDING_SET_SELECT (R415): the selector is written, and the sixteen entries of the set are taken in one snapshot. -/
def execLandingSetSelect (cluster : Nat) (val : DWord) (s : State) : Out :=
  let v := s.svcAt cluster
  match v.selects with
  | x :: rest =>
    if x != val then .fault .eventCannotOccur
    else
      let base := tagIx (bits val 18 16) (bits val 14 0) 0
      .next (s.setSvc cluster { v with selects := rest, sel := val, snap := (span base 16).map s.tagAt })
  | [] => .fault .eventCannotOccur

end Sys2Proof.Machine
end

