-- ==== Sys2Proof/Machine/ErrorLog.lean ====
section
/-! DEFINITION. The error log (R404, R411, R417) and DEVSTAT (R402). -/
namespace Sys2Proof.Machine

/-! ## DEVSTAT (R402) -/

/-- Enabled clusters of the device. -/
def State.enabledClusters (s : State) : Nat := (List.range 8).foldl (fun a d => a + (s.dieClusters d).length) 0
/-- Dies whose spare, physical cluster 4, is in use. -/
def State.sparesUsed (s : State) : Nat := (List.range 8).countP fun d => (s.dieClusters d).contains (5 * d + 4)

/-- DEVSTAT. -/
def State.devstat (s : State) : DWord :=
  .ofNat 64 ((s.clRetired != [] || s.chRetired != []).toNat * 2 ^ 63 + (s.clPending != [] || s.chPending != []).toNat * 2 ^ 62
    + (s.fatal != 0).toNat * 2 ^ 61 + s.dumped.toNat * 2 ^ 60 + s.enabledClusters % 256 * 2 ^ 48 + s.sparesUsed % 256 * 2 ^ 40
    + s.chRetired.length % 256 * 2 ^ 32)

/-- Vector 3 of every function after a change of DEVSTAT (R404). -/
def State.devChanged (s old : State) : State :=
  if s.devstat == old.devstat then s else (List.range 17).foldl (fun s fn => s.raiseMsi fn 3) s

/-! ## Records (R411) -/

/-- Corrected-error events, which may be dropped. -/
def ErrRec.corrected (e : ErrRec) : Bool := decide (e.event ≤ 3)

/-- The 32 bytes of a record. -/
def ErrRec.words (e : ErrRec) (seq : Nat) : List DWord :=
  [.ofNat 64 e.time,
    .ofNat 64 (e.event * 2 ^ 48 + e.ukind * 2 ^ 44 + e.die % 8 * 2 ^ 41 + e.index % 64 * 2 ^ 35 + e.vm % 32 * 2 ^ 30),
    e.detail, .ofNat 64 (e.count % 2 ^ 32 * 2 ^ 32 + seq % 2 ^ 32)]

/-- LOG2N of the error log enables it. -/
def ErrLog.enabled (l : ErrLog) : Bool := decide (6 ≤ l.log2n) && decide (l.log2n ≤ 16)

/-- Vector 2: of the physical function for every record, and of the function whose VM it names (R404). -/
def State.errorMsi (s : State) (vm : Nat) : State :=
  let s := s.raiseMsi 0 2
  if 1 ≤ vm && vm ≤ 16 then s.raiseMsi vm 2 else s

/-- The first waiting record that may be dropped. -/
def dropCorrected : List ErrRec → Option (List ErrRec)
  | [] => none
  | e :: t => if e.corrected then some t else (dropCorrected t).map fun r => e :: r

/-- ERROR_LOG_RECORD (R411): the oldest waiting record is written.  With the log disabled it is counted and not written; with the ring
full the oldest corrected-error record is dropped, and the others wait. -/
def execErrorLogRecord (s : State) : Out :=
  match s.errors with
  | [] => .fault .eventCannotOccur
  | e :: t =>
    if !s.err.enabled then .next { s with errors := t }
    else if !s.regionPresent s.err.base (32 * 2 ^ s.err.log2n) then .fault .eventCannotOccur
    else if ringFull s.err.log2n s.err.head s.err.tail then
      match dropCorrected s.errors with
      | some r => .next { s with errors := r }
      | none => .fault .eventCannotOccur
    else
      let k := hbmKey false (s.err.base + 32 * (s.err.tail.toNat % 2 ^ s.err.log2n))
      let s1 := s.homeWrite 3 (writesFrom k (wordsBytes (e.words s.err.seq)))
      .next ({ s1 with errors := t, err := { s1.err with tail := s1.err.tail + 1, seq := s1.err.seq + 1 } }.errorMsi e.vm)

/-- One second in clk (R3). -/
def second : Nat := 1050000000

/-- The event, unit kind, die and index under which the corrected errors of a unit other than an HBM channel are recorded (R417). -/
def ceUnit (u : Nat) : Nat × Nat × Nat × Nat :=
  if u < 8 then (0x0002, 1, u, 0)
  else if u < 48 then (0x0002, 2, (u - 8) / 5, (u - 8) % 5)
  else (0x0003, 2, (u - 48) / 5, (u - 48) % 5)

/-- ERROR_AGGREGATION (R411): the corrected errors of each unit since the last time go into one record. -/
def execErrorAggregation (s : State) : Out :=
  if s.clk < s.err.aggAt + second then .fault .eventCannotOccur
  else
    let recs := (s.hbm.filter fun e => e.2.ce != 0).map fun e =>
      (⟨e.2.ceSince, 0x0001, 3, e.1 / 64, e.1 % 64, 31, 0, e.2.ce⟩ : ErrRec)
    let soft := s.soft.corrected.map fun e =>
      (⟨e.2.since, (ceUnit e.1).1, (ceUnit e.1).2.1, (ceUnit e.1).2.2.1, (ceUnit e.1).2.2.2, 31, 0, e.2.count⟩ : ErrRec)
    let hbm := s.hbm.foldl (fun m e => Sparse.set {} m e.1 { e.2 with ce := 0, ceSince := 0 }) s.hbm
    .next { s with errors := s.errors ++ recs ++ soft, hbm := hbm, soft := { s.soft with corrected := [] }, err := { s.err with aggAt := s.clk } }

end Sys2Proof.Machine
end

