-- ==== Sys2Proof/Machine/Device.lean ====
section
/-! DEFINITION. Retirement, fatal errors and their dump, reset and power (R72, R401, R402, R409, R412, R413). -/
namespace Sys2Proof.Machine

/-! ## The dump (R413) -/

/-- A section of the dump: its ID, its length and the bytes of it that are not zero. -/
structure Section where
  id : Nat
  len : Nat
  cells : List (Nat × Byte)
  deriving DecidableEq, Repr

/-- The bytes of some words at an offset. -/
def wordsCells (o : Nat) (ws : List DWord) : List (Nat × Byte) := (writesFrom o (wordsBytes ws)).filter fun c => c.2 != 0

/-- Section 1: the ring of the error log as it stands. -/
def State.dumpErrors (s : State) : Section :=
  let n := if s.err.enabled then 32 * 2 ^ s.err.log2n else 0
  ⟨1, n, ((List.range n).map fun o => (o, s.byte (hbmKey false (s.err.base + o)))).filter fun c => c.2 != 0⟩

/-- The save area and wave state blocks of one block, at an offset. -/
def State.dumpBlock (s : State) (o bi : Nat) : List (Nat × Byte) × Nat :=
  let b := s.block bi
  let n := 0x4000 + 4096 * (b.scrUnits + b.accUnits)
  let area := (List.range n).map fun i => (o + i, s.saveByte bi i)
  let waves := (List.range b.waves.length).flatMap fun k =>
    let wi := b.waves.getD k 0
    (List.range 4096).map fun i => (o + n + 4096 * k + i, s.waveSaveByte wi (128 * (s.wave wi).ringN + i))
  ((area ++ waves).filter fun c => c.2 != 0, n + 4096 * b.waves.length)

/-- Section 2: every resident block. -/
def State.dumpBlocks (s : State) : Section :=
  let bs := (List.range s.blocks.length).filter fun i => (s.block i).life == .resident && !(s.block i).svc
  let r := bs.foldl (fun (acc : List (Nat × Byte) × Nat) bi =>
    let x := s.dumpBlock acc.2 bi
    (acc.1 ++ x.1, acc.2 + x.2)) ([], 0)
  ⟨2, r.2, r.1⟩

/-- Section 3: the range-lock tables of the cores, then the reservation tables of the clusters. -/
def State.dumpTables (s : State) : Section :=
  let locks := allCores.flatMap fun c =>
    (List.range 96).flatMap fun e => wordsCells (2304 * c + 24 * e) (s.lockWords ((s.core c).locks.getD e none))
  let resvs := (List.range 40).flatMap fun cl =>
    (List.range 16).flatMap fun n =>
      wordsCells (2304 * 160 + 256 * cl + 16 * n) (s.resvWords ((Sparse.get [] s.resv cl).find? fun r => r.place == n))
  ⟨3, 2304 * 160 + 256 * 40, locks ++ resvs⟩

/-- Section 4: the tag stores by die, set and way, then LFRAME. -/
def State.dumpLanding (s : State) : Section :=
  let n := 48 * (8 * 2 ^ 15 * 16)
  let tags := if s.land.gen0 = 0 then s.land.tags
    else (List.range (2 ^ 19)).map (fun i => (i, s.tagAt i)) ++ s.land.tags.filter fun e => decide (2 ^ 19 ≤ e.1)
  ⟨4, n + 8, (tags.flatMap fun e => wordsCells (48 * e.1) (tagWords e.2)) ++ wordsCells n [s.lreg.frame.setWidth 64]⟩

/-- The four words of a queue entry (R149). -/
def QueueSt.words (x : QueueSt) : List DWord :=
  [.ofNat 64 (x.valid.toNat * 2 ^ 63 + x.recsz * 2 ^ 61 + x.log2n * 2 ^ 56 + x.base), .ofNat 64 (x.asid.toNat * 2 ^ 48 + x.stage * 2 ^ 45 + x.cls * 2 ^ 43),
    (x.tail ++ x.commit : DWord), .ofNat 64 (x.head.toNat * 2 ^ 32 + x.hiwat * 2 ^ 16 + x.lowat)]

/-- Section 5: the queue tables of the functions, then LQPTR of each VM. -/
def State.dumpQueues (s : State) : Section :=
  let n := 17 * 256 * 32
  ⟨5, n + 17 * 8, (s.queues.flatMap fun e => wordsCells (32 * e.1) e.2.words)
    ++ s.lq.flatMap fun e => wordsCells (n + 8 * e.1) [(e.2.head ++ e.2.tail : DWord)]⟩

/-- Section 6: the calendar registers and TTCTL as they read, the calendars in force, and L2WAYOWN (the order is DEDUCED, log
entry 37). -/
def State.dumpCalendars (s : State) : Section :=
  ⟨6, 208, wordsCells 0 (s.tt.shadow ++ [.ofNat 64 (s.tt.pend.toNat * 2)] ++ s.tt.force ++ [s.l2.own.setWidth 64])⟩

/-- The sections in ascending ID (DEDUCED, log entry 37). -/
def State.sections (s : State) : List Section :=
  [s.dumpErrors, s.dumpBlocks, s.dumpTables, s.dumpLanding, s.dumpQueues, s.dumpCalendars]

/-- The offset of each section: the first at 4 KiB, each at the next multiple of 4 KiB. -/
def sectionOffs : Nat → List Section → List Nat
  | _, [] => []
  | o, x :: t => o :: sectionOffs (o + (x.len + 4095) / 4096 * 4096) t

/-- The dump by offset: the header, the directory and the sections; what is not listed is zero. -/
def State.dumpCells (s : State) (cause : Nat) : List (Nat × Byte) :=
  let secs := s.sections
  let offs := sectionOffs 4096 secs
  wordsCells 0 [.ofNat 64 (0x51444D50 + 2 ^ 32), .ofNat 64 cause, .ofNat 64 s.clk, .ofNat 64 (s.lreg.frame.toNat + secs.length * 2 ^ 32)]
    ++ (List.range secs.length).flatMap (fun e =>
      wordsCells (0x20 + 16 * e) [.ofNat 64 (offs.getD e 0 * 2 ^ 16 + (secs.map Section.id).getD e 0), .ofNat 64 ((secs.map Section.len).getD e 0)])
    ++ (offs.zip secs).flatMap fun x => x.2.cells.map fun c => (x.1 + c.1, c.2)

/-- The length of the dump. -/
def State.dumpLength (s : State) : Nat :=
  s.sections.foldl (fun o x => o + (x.len + 4095) / 4096 * 4096) 4096

/-- Write the dump, in class BG (R39), when DUMPBASE.EN is set and the region is present: its bytes take the place of what stood there. -/
def State.writeDump (s : State) (cause : Nat) : State :=
  if !s.dumpEn || !s.regionPresent s.dumpBase (2 ^ 31) || decide (2 ^ 31 < s.dumpLength) then s
  else
    let inside := fun (k : Nat) => isHbm k && decide (s.dumpBase ≤ paOfKey k) && decide (paOfKey k < s.dumpBase + s.dumpLength)
    let cells := (s.dumpCells cause).map fun c => (hbmKey false (s.dumpBase + c.1), c.2)
    { s.coverLines inside cells with dumped := true }

/-- A fatal error (R413): FATAL is set, the event is logged, and the dump is written. -/
def State.fail (s : State) (cause : Nat) : State :=
  let s1 := { s with fatal := cause }.logError 0x70 0 0 0 31 (.ofNat 64 cause)
  (s1.writeDump cause).devChanged s

/-- FATAL_ERROR (R413): the device stops with one of the causes 1-4; it waits for reset. -/
def execFatalError (cause : BitVec 3) (s : State) : Out :=
  if s.fatal != 0 || cause.toNat = 0 || 4 < cause.toNat then .fault .eventCannotOccur else .next (s.fail cause.toNat)

/-! ## Retirement (R401) -/

/-- What a fenced cluster drops: the berths of its cores, whose grids count as killed (DESIGN CHOICE, log entry 32). -/
def State.dropBerths (s : State) (cl : Nat) : State :=
  (span (4 * cl) 4).foldl (fun s core =>
    let gs := (s.core core).berths.map fun b => b.2.grid
    if gs = [] then s
    else
      let s1 := gs.foldl (fun s g => s.updGrid g fun g => { g with killed := true }) s
      { s1.updCore core fun k => { k with berths := [] } with sailed := s1.sailed.filter fun x => x.1 != core }) s

/-- The sailed waves' blocks that a pre-emption found in the berths of a cluster and has not saved. -/
def State.unplacedOn (s : State) (cl : Nat) : List Nat :=
  (List.range s.blocks.length).filter fun i =>
    clusterOf (s.block i).core == cl && ((s.block i).life == .unplaced false || (s.block i).life == .unplaced true)

/-- CLUSTER_FENCE (R401): the cluster's blocks are killed with HW_RETIRED, nothing more is placed on it, and its retirement is
recorded. -/
def execClusterFence (cluster : Nat) (s : State) : Out :=
  if 40 ≤ cluster || s.clFenced.contains cluster || s.clRetired.contains cluster then .fault .eventCannotOccur
  else
    let s1 := { s with clFenced := s.clFenced ++ [cluster], clPending := s.clPending ++ [cluster] }
    let s2 := s1.logError 0x30 2 (cluster / 5) (cluster % 5) 31 0
    let bs := (span (4 * cluster) 4).flatMap s2.resident ++ s2.unplacedOn cluster
    let s3 := bs.foldl (fun s bi => s.kill bi Cause.hwRetired) s2
    .next ((s3.dropBerths cluster).devChanged s)

/-- CHANNEL_RETIREMENT (R401): the retirement of an HBM channel is recorded. -/
def execChannelRetirement (die : BitVec 3) (channel : BitVec 6) (s : State) : Out :=
  let c := (die.toNat, channel.toNat)
  if s.chPending.contains c || s.chRetired.contains c then .fault .eventCannotOccur
  else .next (({ s with chPending := s.chPending ++ [c] }.logError 0x31 3 c.1 c.2 31 0).devChanged s)

/-! ## Reset (R72, R401, R409, R412) -/

/-- The image in a firmware slot: the one written last, or the one the device left manufacture with. -/
def UmSt.imageOf (u : UmSt) (slot : Nat) : List Byte :=
  match u.flash.find? fun e => e.1 == slot with
  | some e => e.2
  | none => Config.factoryImage slot

/-- The boot ROM's verdict on an image (R409). -/
def imageGood (im : List Byte) : Bool := Config.imageVerifies im && decide (Config.fusedMinimum ≤ Config.imageVersion im)

/-- What survives a reset in non-volatile storage, and the boot from the preferred slot or the other one (R409, R412). -/
def UmSt.boot (u : UmSt) : UmSt :=
  let p := u.preferred
  let fresh : UmSt := { flash := u.flash, preferred := p }
  if imageGood (u.imageOf p) then { fresh with running := p }
  else if imageGood (u.imageOf (1 - p)) then { fresh with running := 1 - p }
  else { fresh with running := 2, booted := false }

/-- The slots whose images fail at a boot. -/
def UmSt.rejected (u : UmSt) : List Nat :=
  let p := u.preferred
  if imageGood (u.imageOf p) then [] else if imageGood (u.imageOf (1 - p)) then [p] else [p, 1 - p]

/-- The locations whose storage a reset does not keep: dies that apply a channel's retirement, and all HBM after a loss of
power. -/
def State.lostAt (s : State) (k : Nat) : Bool := isHbm k && (s.off || s.chPending.any fun c => c.1 == k / 2 ^ 37)

/-- The machine after a reset. -/
def State.afterReset (s : State) : State :=
  { State.reset with
    inputs := s.inputs
    choice := s.choice
    soft := { upsets := s.soft.upsets }
    mem := s.mem.filter fun c => !s.lostAt c.1
    poison := s.poison.filter fun p => !s.lostAt (64 * p.1)
    hbmErr := s.hbmErr.filter fun e => !s.lostAt (32 * e.1)
    cmp := { stored := s.cmp.stored.filter fun e => !s.lostAt (256 * e.1) }
    clRetired := s.clRetired ++ s.clPending
    chRetired := s.chRetired ++ s.chPending
    um := s.um.boot }

/-- RET_APPLIED of the clusters that a reset retires: 1 where the die's spare, unused until then, takes the place. -/
def State.applied (s : State) : List Nat → List Nat → State
  | _, [] => s
  | gone, c :: rest =>
    let spare := c % 5 != 4 && !gone.any fun x => x / 5 == c / 5
    (s.logError 0x32 2 (c / 5) (c % 5) 31 (if spare then 1 else 0)).applied (c :: gone) rest

/-- DEVICE_RESET: pending retirements take effect, and the boot ROM verifies the firmware. -/
def execDeviceReset (s : State) : Out :=
  let t := s.afterReset
  let t1 := s.um.rejected.foldl (fun t slot => t.logError 0x61 7 0 0 31 (.ofNat 64 slot)) t
  let t2 := t1.applied s.clRetired s.clPending
  .next (s.chPending.foldl (fun t c => t.logError 0x32 3 c.1 c.2 31 0) t2)

/-- DEVICE_POWER_OFF (R412): no domain stays powered; retirement records and flash survive. -/
def execDevicePowerOff (s : State) : Out :=
  .next { State.reset with
    inputs := s.inputs
    choice := s.choice
    soft := { upsets := s.soft.upsets }
    mem := s.mem.filter fun c => !isHbm c.1
    clRetired := s.clRetired, chRetired := s.chRetired, clPending := s.clPending, chPending := s.chPending
    um := { flash := s.um.flash, preferred := s.um.preferred }
    off := true }

end Sys2Proof.Machine
end

