-- ==== Sys2Proof/Machine/Umcor.lean ====
section
/-! DEFINITION. Umcor (R408-R410, R416): the mailbox of each function, its commands, and the failover of the core pair. -/
namespace Sys2Proof.Machine

/-- UMCOR_FAILOVER (R408, R413): the mirror takes control; with no mirror left the device stops. -/
def execUmcorFailover (s : State) : Out :=
  if s.um.lost then (if s.fatal != 0 then .fault .eventCannotOccur else .next (s.fail 2))
  else
    let now := 1 - s.um.active
    .next ({ s with um := { s.um with active := now, lost := true } }.logError 0x60 7 0 now 31 (.ofNat 64 now))

/-! ## The mailbox (R416) -/

def State.mbOf (s : State) (fn : Nat) : MbSt := Sparse.get {} s.mbox fn
def State.setMb (s : State) (fn : Nat) (m : MbSt) : State := { s with mbox := Sparse.set {} s.mbox fn m }

namespace MbStatus
def ok : Nat := 0
def badCmd : Nat := 1
def denied : Nat := 2
def badSig : Nat := 3
def rollback : Nat := 4
def buffer : Nat := 5
end MbStatus

/-- A write of MBCMD: SLOT and CMD are stored, and GO starts the command unless one is under way; one that is no command ends with
BADCMD. -/
def MbSt.write (m : MbSt) (val : DWord) : MbSt :=
  let slot := bits val 19 16
  let cmd := bits val 15 0
  let m := { m with slot := slot, cmd := cmd }
  if m.busy || !val.getLsbD 63 then m
  else
    let bad := bits val 62 20 != 0 || decide (1 < slot) || cmd == 0 || decide (5 < cmd)
    { m with runSlot := slot, runCmd := cmd, busy := true, result := if bad then some (MbStatus.badCmd, 0) else none }

/-- A command of a function is to be carried out. -/
def State.mbReady (s : State) (fn cmd : Nat) : Bool :=
  decide (fn < 17) && (s.mbOf fn).busy && (s.mbOf fn).result.isNone && (s.mbOf fn).runCmd == cmd

/-- The result of a command: its status and the bytes of its reply. -/
def State.mbResult (s : State) (fn status rlen : Nat) : State := s.setMb fn { s.mbOf fn with result := some (status, rlen) }

/-- A buffer of some bytes that the host link reaches (DEDUCED, log entry 38). -/
def State.bufferOk (s : State) (fn need : Nat) : Bool :=
  decide (need ≤ (s.mbOf fn).len) && decide ((s.mbOf fn).addr + need ≤ 2 ^ 52) && s.pcie.up

/-- The bytes of the buffer. -/
def State.mbRead (s : State) (fn n : Nat) : List Byte := s.bytesAt (span (hostBase + (s.mbOf fn).addr) n)
/-- Write a reply into the buffer. -/
def State.mbWrite (s : State) (fn : Nat) (bs : List Byte) : State := s.homeWrite 3 (writesFrom (hostBase + (s.mbOf fn).addr) bs)

/-- Denied whatever the command but IMAGE, while both slots have failed verification. -/
def State.mbDenied (s : State) (fn : Nat) (pfOnly : Bool) : Bool := (pfOnly && fn != 0) || !s.um.booted

/-! ### ATTEST and IDENTITY -/

/-- The digest of the handler record that a VM's SVCIMG names now, as it was last read (R410): zero while EN = 0, and where that record
has not been read since reset, an earlier value of SVCIMG having named another. -/
def State.handlerDigest (s : State) (vm : Nat) : BitVec 256 :=
  let img : DWord := Sparse.get 0 s.svcImg vm
  match (Sparse.get [] s.svcRead (svcKey vm (bits img 55 2 * 4)) : List Byte) with
  | [] => 0
  | bs => if img.getLsbD 63 then Config.sha256 bs else 0

/-- The bytes of a digest. -/
def digestBytes (d : BitVec 256) : List Byte := leBytes 32 d.toNat

/-- The first 0x290 bytes of the report (R416). -/
def State.reportHead (s : State) (nonce : List Byte) : List Byte :=
  nonce ++ digestBytes (Config.sha256 (s.um.imageOf 0)) ++ digestBytes (Config.sha256 (s.um.imageOf 1))
    ++ leBytes 4 s.um.running ++ leBytes 4 (Config.imageVersion (s.um.imageOf s.um.running)) ++ leBytes 8 s.devstat.toNat
    ++ (List.range 17).flatMap fun n => digestBytes (s.handlerDigest n)

/-- The report with its signature. -/
def State.report (s : State) (nonce : List Byte) : List Byte :=
  let head := s.reportHead nonce
  head ++ (List.range 29792).map (Config.signature head)

/-- ATTEST. -/
def execAttest (fn : BitVec 5) (s : State) : Out :=
  let f := fn.toNat
  if !s.mbReady f 1 then .fault .eventCannotOccur
  else if s.mbDenied f false then .next (s.mbResult f MbStatus.denied 0)
  else if !s.bufferOk f 30448 then .next (s.mbResult f MbStatus.buffer 0)
  else .next ((s.mbWrite f (s.report (s.mbRead f 32))).mbResult f MbStatus.ok 30448)

/-- IDENTITY: the certificate and the public key. -/
def execIdentity (fn : BitVec 5) (s : State) : Out :=
  let f := fn.toNat
  let n := Config.identityLen.toNat
  if !s.mbReady f 2 then .fault .eventCannotOccur
  else if s.mbDenied f false then .next (s.mbResult f MbStatus.denied 0)
  else if !s.bufferOk f n then .next (s.mbResult f MbStatus.buffer 0)
  else .next ((s.mbWrite f ((List.range n).map Config.identity)).mbResult f MbStatus.ok n)

/-! ### IMAGE, ACTIVATE and DUMP -/

/-- How an image fares: BADSIG, ROLLBACK or OK (R409). -/
def imageStatus (im : List Byte) : Nat :=
  if !Config.imageVerifies im then MbStatus.badSig
  else if Config.imageVersion im < Config.fusedMinimum then MbStatus.rollback
  else MbStatus.ok

/-- IMAGE_REJECT is logged for an image that fails verification (R417). -/
def State.imageLogged (s : State) (slot status : Nat) : State :=
  if status = MbStatus.badSig then s.logError 0x61 7 0 s.um.active 31 (.ofNat 64 slot) else s

/-- IMAGE: a signed image goes to a slot that the running firmware did not come from. -/
def execImage (fn : BitVec 5) (s : State) : Out :=
  let f := fn.toNat
  let m := s.mbOf f
  if !s.mbReady f 3 then .fault .eventCannotOccur
  else if f != 0 || m.runSlot == s.um.running then .next (s.mbResult f MbStatus.denied 0)
  else if !s.bufferOk f m.len then .next (s.mbResult f MbStatus.buffer 0)
  else
    let im := s.mbRead f m.len
    let st := imageStatus im
    let s1 := (s.imageLogged m.runSlot st).mbResult f st 0
    .next (if st = MbStatus.ok then
        { s1 with um := { s1.um with flash := (m.runSlot, im) :: s1.um.flash.filter fun e => e.1 != m.runSlot } }
      else s1)

/-- ACTIVATE: the slot becomes the preferred one from the next reset. -/
def execActivate (fn : BitVec 5) (s : State) : Out :=
  let f := fn.toNat
  let m := s.mbOf f
  if !s.mbReady f 4 then .fault .eventCannotOccur
  else if s.mbDenied f true then .next (s.mbResult f MbStatus.denied 0)
  else
    let st := imageStatus (s.um.imageOf m.runSlot)
    let s1 := (s.imageLogged m.runSlot st).mbResult f st 0
    .next (if st = MbStatus.ok then { s1 with um := { s1.um with preferred := m.runSlot } } else s1)

/-- DUMP: a fatal error of cause 4; no reply is written. -/
def execDump (fn : BitVec 5) (s : State) : Out :=
  let f := fn.toNat
  if !s.mbReady f 5 || s.fatal != 0 then .fault .eventCannotOccur
  else if s.mbDenied f true then .next (s.mbResult f MbStatus.denied 0)
  else .next (s.fail 4)

/-- MAILBOX_REPLY: RLEN and STATUS are written, BUSY clears, and vector 4 is raised. -/
def execMailboxReply (fn : BitVec 5) (s : State) : Out :=
  let f := fn.toNat
  let m := s.mbOf f
  match m.result with
  | none => .fault .eventCannotOccur
  | some (st, n) =>
    if !m.busy then .fault .eventCannotOccur
    else .next ((s.setMb f { m with busy := false, status := st, rlen := n, result := none }).raiseMsi f 4)

end Sys2Proof.Machine
end

