-- ==== Sys2Proof/Machine/Candidates.lean ====
section
/-! DEFINITION. The events that the device itself may bring about in a state; those that then have a next state are possible.  What
comes from outside (the host, peers, errors of the hardware), and the background work that leaves no trace in a program's state
(refresh, scrubbing, flits), stands in the list of inputs (DESIGN CHOICE, log entry 2). -/
namespace Sys2Proof.Machine

/-- The numbers below `n` for which `p` holds, as events. -/
def eventsOf (n : Nat) (p : Nat → Bool) (e : Nat → Instr) : List Instr := ((List.range n).filter p).map e

/-- Events of waves: counted instructions, timeouts, walks and the Ferry's refills. -/
def State.waveEvents (s : State) : List Instr :=
  (List.range s.waves.length).flatMap fun i =>
    let w := s.wave i
    if w.life == .ended then []
    else
      w.counted.flatMap (fun e =>
        if e.2.op.isSome || e.2.discarded then []
        else
          let parked := maskOfList (e.2.parked.map Parked.lane)
          let rest := e.2.lanes &&& ~~~ parked
          let due := maskOfList ((e.2.parked.filter fun p => decide (p.timeout ≤ s.clk)).map Parked.lane)
          (if e.2.writes = [] then [] else [.counterDone i e.1 0])
            ++ (if rest = 0 then [] else .counterDone i e.1 rest :: (lanesOf rest).map fun l => .counterDone i e.1 (1#32 <<< l))
            ++ (if due = 0 then [] else [.oscwaitTimeout i e.1 due]))
      ++ (if w.stalls.any fun t => t.fault.isNone then [.translationWalkDone i] else [])
      ++ (if w.refilling then [.refill i] else [])
      ++ (if w.onchip < w.frames.length then [.frameRecordFetch i] else [])

/-- The most bytes that a failed operation may have written of the part that failed. -/
def failLimit (o : EngOp) : Nat :=
  match o.instr with
  | .copy _ dscr sscr _ _ _ _ => (copyPart o dscr sscr).2
  | .coll .. => o.data.length
  | _ => 0

/-- Events of engine operations. -/
def State.engineEvents (s : State) : List Instr :=
  (List.range s.ops.length).flatMap fun i =>
    match s.ops[i]? with
    | none => []
    | some o =>
      if o.life != .running then []
      else [.engineCompletion i]
        ++ (if o.failed.isSome then [.failedOperation i (Config.failedAfter s.choice % (failLimit o + 1))] else [])
        ++ (List.range o.recv.length).map (fun k => .copymArrival i k)
        ++ o.rays.flatMap (fun y =>
          (if y.lifeR == .parked then [.rayTimeout i y.idx] else []) ++ (if y.lifeR == .again then [.rayRelookup i y.idx] else []))
        ++ (match o.instr with
            | .tabld .. => eventsOf expanderCount (fun e => !o.slots.contains e) .tableSlotReplace
            | _ => [])

/-- Events of the matrix engines, and joins of collectives that run out of time. -/
def State.sharedEvents (s : State) : List Instr :=
  (s.resv.map Prod.fst).flatMap (fun cl => .reservationGrant cl :: (s.resvOf cl).map fun r => .reservationPromote cl r.place)
    ++ (if s.ops.any fun o => o.engine == 28 && o.life == .running then (List.range 64).map fun g => .collJoinTimeout (.ofNat 6 g) else [])

/-- Events of the translation, the Landing, the compressor and the Timetable. -/
def State.unitEvents (s : State) : List Instr :=
  (if s.x.faults.any fun r => r.id.isNone then [.faultRecordPost] else [])
    ++ (if s.x.invBusy then [.tlbinvDone] else [])
    ++ (if s.cmp.busy then [.cmpctlSyncDone] else [])
    ++ (if s.lreg.onpend then [.landingInitDone] else [])
    ++ (if s.lreg.offpend then [.landingDisableDone] else [])
    ++ (s.queues.filter fun e => e.2.pend != []).map (fun e => .queueCommit (.ofNat 5 (e.1 / 256)) (.ofNat 8 (e.1 % 256)))
    ++ (if s.clk < 4096 then [] else
        (List.range 32).filterMap fun i =>
          if Sparse.get false s.l2.idle i then none else some (.classIdle (.ofNat 3 (i / 4)) (.ofNat 2 (i % 4))))

/-- Whether some class has pending work. -/
def State.pendingWork (s : State) : Bool := (s.grids.any fun g => g.life == .active) && (List.range 4).any fun c => s.works c != []

/-- Events of the hub and the dispatcher. -/
def State.hubEvents (s : State) : List Instr :=
  (s.lq.map fun e => .launchAccept (.ofNat 5 e.1))
    ++ (if s.pendingWork then ((List.range 8).flatMap s.dieCores).map .blockPlace else [])
    ++ (if s.gangs = [] then [] else (List.range 4).map fun c => .gangReserve (.ofNat 2 c))
    ++ eventsOf s.blocks.length (fun i => (s.block i).ending && (s.block i).life == .resident) .blockEnd
    ++ eventsOf s.grids.length (fun i => s.gridOver i) .gridEnd
    ++ s.cores.flatMap (fun kc => (kc.2.berths.filter fun b => !b.2.sailed).map fun b => .berthSail kc.1 b.1)
    ++ (List.range s.sailed.length).map .sailedWavePlace
    ++ (s.gov.filter fun e => e.2.en).map (fun e => .governorEvaluation (.ofNat 5 e.1))
    ++ s.cores.flatMap (fun kc => if kc.2.ferry = [] then [] else [.spillWrite kc.1])
    ++ s.pmt.flatMap (fun e => e.2.sel.map fun bi => .preemptSaveDone (.ofNat 5 e.1) bi)

/-- Events of the service cores and the rasterisers. -/
def State.serviceEvents (s : State) : List Instr :=
  (s.svcQueue.map fun e => .serviceHandlerStart e.1)
    ++ s.svc.flatMap (fun e =>
      let v := e.2
      (if v.cmd.isSome then [.resume e.1, .killwave e.1, .killblock e.1, .windowWsync e.1] else [])
        ++ v.clears.map (fun k => .rangeLockEntryClear (4 * e.1 + k.1) k.2)
        ++ (v.selects.take 1).map fun x => .landingSetSelect e.1 x)
    ++ (List.range s.grids.length).flatMap fun i =>
      let g := s.grid i
      if g.life != .active || recKind g.record != 1 then []
      else ((g.triangles.map Triangle.wave).eraseDups.flatMap fun w => (List.range 16).map fun q => .triangleRasterise i w (.ofNat 4 q))
        ++ [.rasterDone i]

/-- Events of Umcor. -/
def State.umcorEvents (s : State) : List Instr :=
  (s.mbox.filter fun e => e.2.busy).flatMap (fun e =>
      let fn : BitVec 5 := .ofNat 5 e.1
      [.attest fn, .identity fn, .image fn, .activate fn, .dump fn, .mailboxReply fn])
    ++ (if s.errors = [] then [] else [.errorLogRecord])
    ++ (if s.clk < s.err.aggAt + second then [] else [.errorAggregation])

/-- Every event that the device itself may bring about. -/
def State.candidates (s : State) : List Instr :=
  s.waveEvents ++ s.engineEvents ++ s.sharedEvents ++ s.unitEvents ++ s.hubEvents ++ s.serviceEvents ++ s.umcorEvents

end Sys2Proof.Machine
end

