-- ==== Sys2Proof/Machine/Integer.lean ====
section
/-! DEFINITION. The instructions of groups 0x3 and 0x4: integer arithmetic, moves, shifts, logic and bit fields
(R247-R264), each over the one run of a lane instruction. -/
namespace Sys2Proof.Machine

/-- The run of a lane instruction (R248): the register checks, then the checks `pre`, then every source is read as it
stands at issue, the destination written in active lanes (once for K) and the slot moved to PC + 12.  `dw` is the width of
the destination in registers, `srcs` the sources with theirs; `a` and `b` are the sources of the reuse hints. -/
def alu (h : Hdr) (d : Operand) (dw : Nat) (srcs : List (Operand × Nat)) (a b : Option Operand)
    (pre : Ctx → List Check) (f : Ctx → Nat → List Word) (s : State) : Out :=
  issue s h fun c =>
    guardTraps s c (c.regCheck [(d, dw)] srcs :: pre c)
      (.next (s.retire c (c.w.writeResult c.act d (f c)) a b))

/-- No check beyond those of the registers. -/
def noChecks : Ctx → List Check := fun _ => []

/-- One source, one 32-bit result. -/
def alu1 (h : Hdr) (d a : Operand) (f : Word → Word) (s : State) : Out :=
  alu h d 1 [(a, 1)] (some a) none noChecks (fun c l => [f (c.w.read a l)]) s

/-- Two sources, one 32-bit result. -/
def alu2 (h : Hdr) (d a b : Operand) (f : Word → Word → Word) (s : State) : Out :=
  alu h d 1 [(a, 1), (b, 1)] (some a) (some b) noChecks (fun c l => [f (c.w.read a l) (c.w.read b l)]) s

/-- Three sources, one 32-bit result. -/
def alu3 (h : Hdr) (d a b x : Operand) (f : Word → Word → Word → Word) (s : State) : Out :=
  alu h d 1 [(a, 1), (b, 1), (x, 1)] (some a) (some b) noChecks
    (fun c l => [f (c.w.read a l) (c.w.read b l) (c.w.read x l)]) s

/-! ## Group 0x3: integer arithmetic (R251-R256) -/

/-- IADD: A + B per element (R251). -/
def execIadd (h : Hdr) (ty : Ty) (sat : Bool) (d a b : Operand) (s : State) : Out :=
  alu2 h d a b (fun x y => elemOp ty sat (fun v => arg v 0 + arg v 1) [x, y]) s

/-- ISUB: A - B per element (R251). -/
def execIsub (h : Hdr) (ty : Ty) (sat : Bool) (d a b : Operand) (s : State) : Out :=
  alu2 h d a b (fun x y => elemOp ty sat (fun v => arg v 0 - arg v 1) [x, y]) s

/-- IMUL: the low bits of the product per element (R251). -/
def execImul (h : Hdr) (ty : Ty) (d a b : Operand) (s : State) : Out :=
  alu2 h d a b (fun x y => elemOp ty false (fun v => arg v 0 * arg v 1) [x, y]) s

/-- IMULH: bits [63:32] of the product (R251). -/
def execImulh (h : Hdr) (ty : Ty) (d a b : Operand) (s : State) : Out :=
  alu2 h d a b (mulHigh (Ty.signed ty)) s

/-- IMAD: A * B + C per element (R251). -/
def execImad (h : Hdr) (ty : Ty) (sat : Bool) (d a b x : Operand) (s : State) : Out :=
  alu3 h d a b x (fun p q r => elemOp ty sat (fun v => arg v 0 * arg v 1 + arg v 2) [p, q, r]) s

/-- IMIN: the lesser per element (R251). -/
def execImin (h : Hdr) (ty : Ty) (d a b : Operand) (s : State) : Out :=
  alu2 h d a b (fun x y => elemOp ty false (fun v => min (arg v 0) (arg v 1)) [x, y]) s

/-- IMAX: the greater per element (R251). -/
def execImax (h : Hdr) (ty : Ty) (d a b : Operand) (s : State) : Out :=
  alu2 h d a b (fun x y => elemOp ty false (fun v => max (arg v 0) (arg v 1)) [x, y]) s

/-- IABS: the absolute value per element (R251). -/
def execIabs (h : Hdr) (ty : Ty) (sat : Bool) (d a : Operand) (s : State) : Out :=
  alu1 h d a (fun x => elemOp ty sat (fun v => ((arg v 0).natAbs : Int)) [x]) s

/-- IADDC: D := A + B + Fk (B complemented for `.sub`), Fk := the carry (R252). -/
def execIaddc (h : Hdr) (_ty : Ty) (sub : Bool) (d a b x : Operand) (s : State) : Out :=
  issue s h fun c =>
    let sum := fun l => addCarry sub (c.w.read a l) (c.w.read b l) ((c.w.read x l).getLsbD 0)
    let w := c.w.writeResult c.act d (fun l => [(sum l).1])
    guardTraps s c [c.regCheck [(d, 1)] [(a, 1), (b, 1)]]
      (.next (s.retire c (w.writeResult c.act x (fun l => [boolWord (sum l).2])) (some a) (some b)))

/-- IADD64: A + B modulo 2^64 on pairs (R253). -/
def execIadd64 (h : Hdr) (_ty : Ty) (d a b : Operand) (s : State) : Out :=
  alu h d 2 [(a, 2), (b, 2)] (some a) (some b) noChecks
    (fun c l => words64 (c.w.read64 a l + c.w.read64 b l)) s

/-- IMAD64: A * B + C with C and D pairs (R253). -/
def execImad64 (h : Hdr) (ty : Ty) (d a b x : Operand) (s : State) : Out :=
  alu h d 2 [(a, 1), (b, 1), (x, 2)] (some a) (some b) noChecks
    (fun c l => words64 (mulAdd64 (Ty.signed ty) (c.w.read a l) (c.w.read b l) (c.w.read64 x l))) s

/-- ICMP: a flag, or a word of ones or zeros (R254). -/
def execIcmp (h : Hdr) (ty : Ty) (cond : Cmp) (d a b : Operand) (s : State) : Out :=
  alu2 h d a b (fun x y => truth (icmpVal (Ty.signed ty) cond x y)) s

/-- ISEL: A where the condition is true, B elsewhere (R255). -/
def execIsel (h : Hdr) (_ty : Ty) (d a b x : Operand) (s : State) : Out :=
  alu h d 1 [(a, 1), (b, 1)] (some a) (some b) noChecks
    (fun c l => [if c.w.cond x l then c.w.read a l else c.w.read b l]) s

/-- IDOT4: C plus the sum of the four byte products (R256). -/
def execIdot4 (h : Hdr) (ty : Ty) (sat : Bool) (d a b x : Operand) (s : State) : Out :=
  alu3 h d a b x (fun p q r => .ofNat 32 (packElem (Ty.signed ty) sat 32 (dot4 (Ty.signed ty) p q r))) s

/-! ## Moves (R257) -/

/-- The registers a TYPE covers: two for `.b64`, four for `.b128`, else one (R217, R221). -/
def regsOfTy : Ty → Nat
  | .b64 => 2
  | .b128 => 4
  | _ => 1

/-- MOV: the 1, 2 or 4 words copied; a flag receives A ≠ 0, an X register A[7:0] (R257). -/
def execMov (h : Hdr) (ty : Ty) (d a : Operand) (s : State) : Out :=
  alu h d (regsOfTy ty) [(a, regsOfTy ty)] (some a) none noChecks
    (fun c l => match d with
      | .f _ => [boolWord (c.w.read a l != 0)]
      | _ => (List.range (regsOfTy ty)).map fun j => c.w.readAt a l j) s

/-- MOVI: the immediate, sign-extended for a pair (R257). -/
def execMovi (h : Hdr) (ty : Ty) (d : Operand) (imm : Word) (s : State) : Out :=
  alu h d (regsOfTy ty) [] none none noChecks
    (fun _ _ => if ty == .b64 then words64 (imm.signExtend 64) else [imm]) s

/-! ## Group 0x4: shifts, logic and bit fields (R258-R264) -/

/-- SHL (R258). -/
def execShl (h : Hdr) (_ty : Ty) (d a b : Operand) (s : State) : Out := alu2 h d a b shlVal s
/-- SHR (R258). -/
def execShr (h : Hdr) (_ty : Ty) (d a b : Operand) (s : State) : Out := alu2 h d a b shrVal s
/-- SAR (R258). -/
def execSar (h : Hdr) (_ty : Ty) (d a b : Operand) (s : State) : Out := alu2 h d a b sarVal s
/-- ROTL (R258). -/
def execRotl (h : Hdr) (_ty : Ty) (d a b : Operand) (s : State) : Out := alu2 h d a b rotlVal s
/-- FSHL (R259). -/
def execFshl (h : Hdr) (_ty : Ty) (d a b x : Operand) (s : State) : Out := alu3 h d a b x fshlVal s
/-- FSHR (R259). -/
def execFshr (h : Hdr) (_ty : Ty) (d a b x : Operand) (s : State) : Out := alu3 h d a b x fshrVal s
/-- AND (R260). -/
def execAnd (h : Hdr) (_ty : Ty) (d a b : Operand) (s : State) : Out := alu2 h d a b (fun x y => x &&& y) s
/-- OR (R260). -/
def execOr (h : Hdr) (_ty : Ty) (d a b : Operand) (s : State) : Out := alu2 h d a b (fun x y => x ||| y) s
/-- XOR (R260). -/
def execXor (h : Hdr) (_ty : Ty) (d a b : Operand) (s : State) : Out := alu2 h d a b (fun x y => x ^^^ y) s
/-- ANDN: A and not B (R260). -/
def execAndn (h : Hdr) (_ty : Ty) (d a b : Operand) (s : State) : Out := alu2 h d a b (fun x y => x &&& ~~~ y) s
/-- NOT (R260). -/
def execNot (h : Hdr) (_ty : Ty) (d a : Operand) (s : State) : Out := alu1 h d a (fun x => ~~~ x) s
/-- BFX (R261). -/
def execBfx (h : Hdr) (ty : Ty) (d a b : Operand) (s : State) : Out := alu2 h d a b (bfxVal (Ty.signed ty)) s
/-- BFI (R261). -/
def execBfi (h : Hdr) (_ty : Ty) (d a b x : Operand) (s : State) : Out := alu3 h d a b x bfiVal s
/-- CLZ (R262). -/
def execClz (h : Hdr) (_ty : Ty) (d a : Operand) (s : State) : Out := alu1 h d a clzVal s
/-- CTZ (R262). -/
def execCtz (h : Hdr) (_ty : Ty) (d a : Operand) (s : State) : Out := alu1 h d a ctzVal s
/-- POPC (R262). -/
def execPopc (h : Hdr) (_ty : Ty) (d a : Operand) (s : State) : Out := alu1 h d a popcVal s
/-- BREV (R262). -/
def execBrev (h : Hdr) (_ty : Ty) (d a : Operand) (s : State) : Out := alu1 h d a brevVal s
/-- BILV (R263). -/
def execBilv (h : Hdr) (_ty : Ty) (d a b : Operand) (s : State) : Out := alu2 h d a b bilvVal s
/-- BDIL (R263). -/
def execBdil (h : Hdr) (_ty : Ty) (d a : Operand) (s : State) : Out := alu1 h d a bdilVal s
/-- PRMT (R264). -/
def execPrmt (h : Hdr) (_ty : Ty) (d a b x : Operand) (s : State) : Out := alu3 h d a b x prmtVal s

end Sys2Proof.Machine
end

