-- ==== Sys2Proof/Machine/FloatOps.lean ====
section
/-! DEFINITION. The instructions of groups 0x5, 0x6 and 0x7: FP32, packed 16-bit, transcendental and conversion
(R265-R270). -/
namespace Sys2Proof.Machine

/-! ## Group 0x5 (R265, R266, R254) -/

/-- FADD (R265). -/
def execFadd (h : Hdr) (_ty : Ty) (m : FMod) (d a b : Operand) (s : State) : Out :=
  alu2 h d a b (fun x y => fop32 .add m x y 0) s
/-- FSUB (R265). -/
def execFsub (h : Hdr) (_ty : Ty) (m : FMod) (d a b : Operand) (s : State) : Out :=
  alu2 h d a b (fun x y => fop32 .sub m x y 0) s
/-- FMUL (R265). -/
def execFmul (h : Hdr) (_ty : Ty) (m : FMod) (d a b : Operand) (s : State) : Out :=
  alu2 h d a b (fun x y => fop32 .mul m x y 0) s
/-- FFMA, rounded once (R265). -/
def execFfma (h : Hdr) (_ty : Ty) (m : FMod) (d a b x : Operand) (s : State) : Out :=
  alu3 h d a b x (fop32 .fma m) s
/-- FMIN (R265, R239). -/
def execFmin (h : Hdr) (_ty : Ty) (m : FMod) (d a b : Operand) (s : State) : Out :=
  alu2 h d a b (fun x y => fop32 .min m x y 0) s
/-- FMAX (R265, R239). -/
def execFmax (h : Hdr) (_ty : Ty) (m : FMod) (d a b : Operand) (s : State) : Out :=
  alu2 h d a b (fun x y => fop32 .max m x y 0) s
/-- FCMP (R254). -/
def execFcmp (h : Hdr) (_ty : Ty) (unord : Bool) (cond : Cmp) (d a b : Operand) (s : State) : Out :=
  alu2 h d a b (fun x y => truth (fcmpVal unord cond x y)) s
/-- FRINT (R266). -/
def execFrint (h : Hdr) (_ty : Ty) (dir : RoundDir) (d a : Operand) (s : State) : Out :=
  alu1 h d a (frintVal dir) s

/-! ## Group 0x6: packed 16-bit (R267) -/

/-- HADD2 (R267). -/
def execHadd2 (h : Hdr) (ty : Ty) (m : FMod) (d a b : Operand) (s : State) : Out :=
  alu2 h d a b (fun x y => hop2 (halfFmt ty) .add m x y 0) s
/-- HMUL2 (R267). -/
def execHmul2 (h : Hdr) (ty : Ty) (m : FMod) (d a b : Operand) (s : State) : Out :=
  alu2 h d a b (fun x y => hop2 (halfFmt ty) .mul m x y 0) s
/-- HFMA2 (R267). -/
def execHfma2 (h : Hdr) (ty : Ty) (m : FMod) (d a b x : Operand) (s : State) : Out :=
  alu3 h d a b x (hop2 (halfFmt ty) .fma m) s
/-- HMIN2 (R267). -/
def execHmin2 (h : Hdr) (ty : Ty) (m : FMod) (d a b : Operand) (s : State) : Out :=
  alu2 h d a b (fun x y => hop2 (halfFmt ty) .min m x y 0) s
/-- HMAX2 (R267). -/
def execHmax2 (h : Hdr) (ty : Ty) (m : FMod) (d a b : Operand) (s : State) : Out :=
  alu2 h d a b (fun x y => hop2 (halfFmt ty) .max m x y 0) s

/-! ## Group 0x7: transcendental (R268, R240) -/

/-- FRCP (R268). -/
def execFrcp (h : Hdr) (_ty : Ty) (d a : Operand) (s : State) : Out := alu1 h d a frcpVal s
/-- FRSQ (R268). -/
def execFrsq (h : Hdr) (_ty : Ty) (d a : Operand) (s : State) : Out := alu1 h d a frsqVal s
/-- FSQRT (R268). -/
def execFsqrt (h : Hdr) (_ty : Ty) (d a : Operand) (s : State) : Out := alu1 h d a fsqrtVal s
/-- FEX2 (R268). -/
def execFex2 (h : Hdr) (_ty : Ty) (d a : Operand) (s : State) : Out := alu1 h d a fex2Val s
/-- FLG2 (R268). -/
def execFlg2 (h : Hdr) (_ty : Ty) (d a : Operand) (s : State) : Out := alu1 h d a flg2Val s
/-- FSIN (R268). -/
def execFsin (h : Hdr) (_ty : Ty) (d a : Operand) (s : State) : Out := alu1 h d a (trigVal false Config.fsin) s
/-- FCOS (R268). -/
def execFcos (h : Hdr) (_ty : Ty) (d a : Operand) (s : State) : Out := alu1 h d a (trigVal true Config.fcos) s

/-! ## Conversion (R269, R270) -/

/-- CVT (R269). -/
def execCvt (h : Hdr) (dst src : Ty) (hi : Bool) (d a : Operand) (s : State) : Out := alu1 h d a (cvtVal dst src hi) s
/-- PACK8 (R270). -/
def execPack8 (h : Hdr) (ty : Ty) (hi : Bool) (d a b x : Operand) (s : State) : Out :=
  alu3 h d a b x (pack8Val ty hi) s
/-- UNPK8 (R270). -/
def execUnpk8 (h : Hdr) (ty : Ty) (sel : BitVec 2) (d a : Operand) (s : State) : Out :=
  alu1 h d a (unpk8Val ty sel.toNat) s
/-- PACKD (R270). -/
def execPackd (h : Hdr) (ty : Ty) (d a b : Operand) (s : State) : Out := alu2 h d a b (packdVal ty) s

end Sys2Proof.Machine
end

