-- ==== Sys2Proof/Machine/HostIf.lean ====
section
/-! DEFINITION. What reaches the machine from the host port and the Izlyn ports (R50, R106, R134, R403, R405, R406, R417). -/
namespace Sys2Proof.Machine

/-! ## Reads and writes at the homes -/

/-- An error response. -/
def State.refuse (s : State) : State := { s with hostReply := none }

/-- A read at the homes: the bytes, or an error response where a line is stale, which is logged with the VM whose function reads (31 for
a peer). -/
def State.partyRead (s : State) (vm : Nat) (ks : List Nat) : State :=
  match ks.find? s.homeStale with
  | some k => (s.logError 0x14 1 (k / 2 ^ 37) 0 vm (.ofNat 64 (paOfKey (k / 256 * 256)))).refuse
  | none => { s.l2TouchAll ks 3 false with hostReply := some (s.bytesAt ks) }

/-- A write at the homes. -/
def State.partyWrite (s : State) (ks : List Nat) (data : List Byte) : State :=
  { s.homeWrite 3 (ks.zip data) with hostReply := some [] }

/-! ## BAR2 (R403) -/

/-- HOST_BAR2_ACCESS: offset `off` is that VA of the function's VM under ASID 0; a failed translation answers Unsupported Request. -/
def execHostBar2Access (fn : BitVec 5) (off : BitVec 36) (write : Bool) (data : List Byte) (s : State) : Out :=
  if 17 ≤ fn.toNat || !s.pcie.up || (fn != 0 && !s.um.booted) then .fault .eventCannotOccur
  else match s.placeAll 64 3 ⟨fn.toNat, 0, false, false⟩ (if write then .store else .load) (span off.toNat data.length) with
    | .fault .. => .next s.refuse
    | .pri s' => waited s s'
    | .ok s' ls => .next (if write then s'.partyWrite (ls.map Loc.key) data else s'.partyRead fn.toNat (ls.map Loc.key))

/-! ## Peers (R405, R406) -/

/-- What a peer asks for: a load, a store, or an atomic with its type. -/
inductive PeerOp where
  | load
  | store
  | atom (op : AtomOp) (ty : Ty)
  deriving DecidableEq, Repr

/-- The width of an atomic's operand; a compare-and-swap carries its compare value after it. -/
def atomWidth (op : AtomOp) (n : Nat) : Nat := if op == .cas then n / 2 else n

/-- The codes of the events' argument: 0 load, 1 store, 2 onward the atomics of R312 in their order, 12 and 13 the signed `min` and
`max`. -/
def peerOp (code n : Nat) : Option PeerOp :=
  let int := fun op => let w := atomWidth op n
    if w = 4 then some (.atom op .n32) else if w = 8 then some (.atom op .b64) else none
  match code with
  | 0 => some .load
  | 1 => some .store
  | 2 => int .add
  | 3 => int .min
  | 4 => int .max
  | 5 => int .and
  | 6 => int .or
  | 7 => int .xor
  | 8 => int .exch
  | 9 => int .cas
  | 10 => if n = 4 then some (.atom .faddF32 .f32) else none
  | 11 => if n = 4 then some (.atom .faddB2 .n32) else none
  | 12 => if n = 4 then some (.atom .min .i32) else none
  | 13 => if n = 4 then some (.atom .max .i32) else none
  | _ => none

/-- A peer's atomic at its home. -/
def State.peerAtomic (s : State) (op : AtomOp) (ty : Ty) (ks : List Nat) (data : List Byte) : State :=
  let w := atomWidth op data.length
  let r := s.atomGlobal 3 op ty [⟨0, ks.take w, leNat (data.take w), leNat (data.drop w)⟩]
  { r.1 with hostReply := some (leBytes w ((r.2.map fun x => x.2.1).headD 0)) }

/-- IZLYN_PEER_ACCESS: PA[43:0] is a local PA of this device; an address outside present storage, or in protected storage, is
refused (R22, R406). -/
def execIzlynPeerAccess (port : BitVec 4) (pa : BitVec 44) (kind : BitVec 4) (data : List Byte) (s : State) : Out :=
  if !(Sparse.get {} s.ports port.toNat : Port).up then .fault .eventCannotOccur
  else match peerOp kind.toNat data.length with
    | none => .fault .eventCannotOccur
    | some p =>
      let pas := span pa.toNat data.length
      let ks := pas.map (hbmKey false)
      if pas.any (fun a => decide (2 ^ 40 ≤ a)) || ks.any (fun k => !s.present k || s.isProtected k) then .next s.refuse
      else match p with
        | .load => .next (s.partyRead 31 ks)
        | .store => .next (s.partyWrite ks data)
        | .atom op ty => .next (s.peerAtomic op ty ks data)

/-- IZLYN_LINK_TRAINING (R405): the link runs at the lower of the two highest versions, ours being 2; a failed training leaves the port
down. -/
def execIzlynLinkTraining (port : BitVec 4) (theirs : Nat) (s : State) : Out :=
  let p := port.toNat
  let v := min 2 theirs
  if v = 0 then .next ({ s with ports := Sparse.set {} s.ports p {} }.logError 0x40 4 0 p 31 0)
  else .next ({ s with ports := Sparse.set {} s.ports p ⟨true, v⟩ }.logError 0x41 4 0 p 31 (.ofNat 64 v))

/-! ## The PCI Express port (R403) -/

/-- PCIE_LINK_TRAINING: ×16, ×8, ×4 or ×1 at the rate of a generation from 1 to 7; flit mode always from 64 GT/s, below it on
request. -/
def execPcieLinkTraining (up : Bool) (width rate : Nat) (flit : Bool) (s : State) : Out :=
  if !up then .next { s with pcie := {} }
  else if (width != 16 && width != 8 && width != 4 && width != 1) || rate = 0 || 7 < rate then .fault .eventCannotOccur
  else .next { s with pcie := { up := true, width := width, rate := rate, flit := decide (6 ≤ rate) || flit } }

/-- PCIE_PORT_ERROR (R417). -/
def execPciePortError (status : DWord) (s : State) : Out := .next (s.logError 0x50 5 0 0 31 status)

end Sys2Proof.Machine
end

