-- ==== Sys2Proof/Machine/LaneOps.lean ====
section
/-! DEFINITION. The instructions of group 0x8: lane exchange, votes, reductions, derivatives (R271-R279). -/
namespace Sys2Proof.Machine

/-! ## Reading another lane (R271) -/

/-- The key of word `j` of an operand resolved in lane `l` and read in lane `src` (R271). -/
def Wave.crossKey (w : Wave) (a : Operand) (l src j : Nat) : Option Nat :=
  match a with
  | .vx n c => some (w.vKey ((w.xOf n.val l).toNat + c.val + j) src)
  | _ => w.opKey a src j

/-- Word `j` of an operand resolved in lane `l` and read in lane `src`; 0 where the source lane was never launched. -/
def Wave.cross (w : Wave) (a : Operand) (l src j : Nat) : Word :=
  if !w.launched.getLsbD src then 0
  else match a with
    | .vx n c => w.reg (w.vKey ((w.xOf n.val l).toNat + c.val + j) src)
    | _ => w.readAt a src j

/-- Words [0, n) of an operand read in another lane. -/
def Wave.crossWords (w : Wave) (a : Operand) (l src n : Nat) : List Word := (List.range n).map fun j => w.cross a l src j

/-- The active lanes whose source lane's words are poisoned; a lane never launched gives 0 and no poison (R193, R271). -/
def Ctx.crossPoison (c : Ctx) (a : Operand) (n : Nat) (src : Nat → Nat) : LaneMask :=
  maskOf fun l => c.act.getLsbD l && c.w.launched.getLsbD (src l) && (List.range n).any fun j =>
    match a, c.w.crossKey a l (src l) j with
    | .x n, _ => c.w.poisoned (xKey n.val (src l))
    | _, some k => c.w.poisoned k
    | _, none => false

/-- The register checks of an instruction that reads operand A in another lane: as `Ctx.regCheck`, REG_BOUND over every operand, REG_POISON
over the sources of its own lanes and the words read in the source lanes (R193, R271). -/
def Ctx.crossCheck (c : Ctx) (dst srcs : List (Operand × Nat)) (a : Operand) (n : Nat) (src : Nat → Nat) : Check :=
  (c.oddIndex (dst ++ (a, n) :: srcs)).or <|
  match c.w.regBound c.act (dst ++ (a, n) :: srcs) with
  | some m => some (Cause.regBound, m, 0)
  | none =>
    if c.w.poison = [] then none
    else
      let own := c.w.regPoison c.act (if a.isK then (a, n) :: srcs else srcs)
      let m := own.getD 0 ||| c.crossPoison a n src
      if own.isNone && m = 0 then none else some (Cause.regPoison, m, 0)

/-- The reuse hint of an instruction that reads operand A in a source lane: the value read, which is the source lane's, goes to O0
(R177, R271). -/
def Ctx.crossReuse (c : Ctx) (w : Wave) (a : Operand) (src : Nat → Nat) : Wave :=
  if c.h.hint.reuseA then (lanesOf c.act).foldl (fun w l => w.setReg (oKey 0 l) (c.w.cross a l (src l) 0)) w else w

/-- The run of an instruction that reads operand A in a source lane: its checks, then as `alu` (R248, R271). -/
def aluCross (h : Hdr) (d : Operand) (n : Nat) (a : Operand) (others : List (Operand × Nat)) (b : Option Operand)
    (src : Ctx → Nat → Nat) (f : Ctx → Nat → List Word) (s : State) : Out :=
  issue s h fun c =>
    guardTraps s c [c.crossCheck [(d, n)] others a n (src c)]
      (.next (s.retire c (c.crossReuse (c.w.writeResult c.act d (f c)) a (src c)) none b))

/-- The source lane of SHFL, its own lane where the named one is out of range or was never launched (R272). -/
def Ctx.shflSrc (c : Ctx) (mode : ShflMode) (b : Operand) (l : Nat) : Nat :=
  let k := (c.w.read b l).toNat
  let src : Int := match mode with
    | .idx => (k % 32 : Nat)
    | .up => (l : Int) - k
    | .down => (l + k : Nat)
    | .xor => (l ^^^ (k % 32) : Nat)
  if src < 0 || 31 < src || !c.w.launched.getLsbD src.toNat then l else src.toNat

/-- SHFL (R272). -/
def execShfl (h : Hdr) (ty : Ty) (mode : ShflMode) (d a b : Operand) (s : State) : Out :=
  aluCross h d (regsOfTy ty) a [(b, 1)] (some b) (fun c => c.shflSrc mode b)
    (fun c l => c.w.crossWords a l (c.shflSrc mode b l) (regsOfTy ty)) s

/-- The reading lane of a K destination: the lowest active lane, lane 0 where none is active (R271; DESIGN CHOICE, log entry 54). -/
def Ctx.reader (c : Ctx) (d : Operand) (l : Nat) : Nat := if d.isK then (lanesOf c.act).headD 0 else l

/-- RDLANE: the lane B[4:0] of A (R273). -/
def execRdlane (h : Hdr) (ty : Ty) (d a b : Operand) (s : State) : Out :=
  aluCross h d (regsOfTy ty) a [(b, 1)] (some b) (fun c l => (c.w.read b l).toNat % 32)
    (fun c l => c.w.crossWords a (c.reader d l) ((c.w.read b l).toNat % 32) (regsOfTy ty)) s

/-- The source lane of QUAD (R279). -/
def quadSrc (mode : QuadMode) (n : BitVec 2) (l : Nat) : Nat :=
  match mode with
  | .bcast => l / 4 * 4 + n.toNat
  | .swapx => l ^^^ 1
  | .swapy => l ^^^ 2
  | .swapd => l ^^^ 3

/-- QUAD (R279). -/
def execQuad (h : Hdr) (_ty : Ty) (mode : QuadMode) (n : BitVec 2) (d a : Operand) (s : State) : Out :=
  aluCross h d 1 a [] none (fun _ => quadSrc mode n) (fun c l => c.w.crossWords a l (quadSrc mode n l) 1) s

/-! ## Votes and matches (R274, R275) -/

/-- The value of VOTE: `m` is the mask of active lanes where the condition is true (R274). -/
def voteVal (mode : VoteMode) (q m : LaneMask) : Word :=
  match mode with
  | .all => truth (m == q)
  | .any => truth (m != 0)
  | .ballot => m
  | .eq => truth (m == q || m == 0)

/-- VOTE (R274). -/
def execVote (h : Hdr) (_ty : Ty) (mode : VoteMode) (d a : Operand) (s : State) : Out :=
  alu h d 1 [] (some a) none noChecks
    (fun c _ => [voteVal mode c.act (maskOf fun l => c.act.getLsbD l && c.w.cond a l)]) s

/-- MATCH: the active lanes that hold the same bits (R275). -/
def execMatch (h : Hdr) (ty : Ty) (d a : Operand) (s : State) : Out :=
  alu h d 1 [(a, regsOfTy ty)] (some a) none (fun c => [c.convCheck])
    (fun c l => [maskOf fun m => c.act.getLsbD m &&
      (List.range (regsOfTy ty)).all fun j => c.w.readAt a m j == c.w.readAt a l j]) s

/-! ## Trees over lanes (R241, R276, R277) -/

/-- A combination with an absent side passes the other side (R241). -/
def combine (f : Word → Word → Word) (x y : Option Word) : Option Word :=
  match x, y with
  | none, y => y
  | x, none => x
  | some a, some b => some (f a b)

/-- One level of the balanced tree: neighbours combined, the lower lanes on the left. -/
def treeLevel (f : Word → Word → Word) : List (Option Word) → List (Option Word)
  | x :: y :: t => combine f x y :: treeLevel f t
  | t => t

/-- The five levels of REDW's tree (R241). -/
def tree32 (f : Word → Word → Word) (vs : List (Option Word)) : Option Word :=
  (treeLevel f (treeLevel f (treeLevel f (treeLevel f (treeLevel f vs))))).getD 0 none

/-- One step of SCANW's prefix tree: lanes with bit k take v(p) ⊕ v(l), p = ((l >> k) << k) - 1 (R241). -/
def scanStep (f : Word → Word → Word) (k : Nat) (vs : List (Option Word)) : List (Option Word) :=
  (List.range 32).map fun l =>
    let v := vs.getD l none
    if l / 2 ^ k % 2 = 1 then combine f (vs.getD (l / 2 ^ k * 2 ^ k - 1) none) v else v

/-- SCANW's prefix tree (R241). -/
def scan32 (f : Word → Word → Word) (vs : List (Option Word)) : List (Option Word) :=
  (List.range 5).foldl (fun vs k => scanStep f k vs) vs

/-- The operation of a reduction on two words (R276). -/
def redFn (ty : Ty) (op : RedOp) (a b : Word) : Word :=
  let lt := if Ty.signed ty then a.slt b else a.ult b
  match op with
  | .add => if ty == .f32 then fadd32 a b else a + b
  | .min => if ty == .f32 then .ofNat 32 (fp32.minPat false a.toNat b.toNat) else if lt then a else b
  | .max => if ty == .f32 then .ofNat 32 (fp32.minPat true a.toNat b.toNat) else if lt then b else a
  | .and => a &&& b
  | .or => a ||| b
  | .xor => a ^^^ b

/-- The identity of a reduction (R276). -/
def redId (ty : Ty) (op : RedOp) : Word :=
  match op with
  | .add => 0
  | .min => if ty == .f32 then 0x7F800000 else if Ty.signed ty then 0x7FFFFFFF else 0xFFFFFFFF
  | .max => if ty == .f32 then 0xFF800000 else if Ty.signed ty then 0x80000000 else 0
  | .and => 0xFFFFFFFF
  | .or | .xor => 0

/-- The values of the active lanes, absent where a lane is inactive (R241). -/
def Ctx.laneVals (c : Ctx) (a : Operand) : List (Option Word) :=
  (List.range 32).map fun l => if c.act.getLsbD l then some (c.w.read a l) else none

/-- REDW (R276). -/
def execRedw (h : Hdr) (ty : Ty) (op : RedOp) (d a : Operand) (s : State) : Out :=
  alu h d 1 [(a, 1)] (some a) none (fun c => [c.convCheck])
    (fun c _ => [(tree32 (redFn ty op) (c.laneVals a)).getD (redId ty op)]) s

/-- SCANW (R277). -/
def execScanw (h : Hdr) (ty : Ty) (op : RedOp) (excl : Bool) (d a : Operand) (s : State) : Out :=
  alu h d 1 [(a, 1)] (some a) none (fun c => [c.convCheck])
    (fun c l =>
      let p := scan32 (redFn ty op) (c.laneVals a)
      let v := if excl then (if l = 0 then none else p.getD (l - 1) none) else p.getD l none
      [v.getD (redId ty op)]) s

/-! ## Quad derivatives (R210, R278) -/

/-- Whether a lane's derivative partner counts: never in a sailed wave, and only if launched (R210, R278). -/
def Ctx.partnerOk (c : Ctx) (p : Nat) : Bool := !c.w.spawned && c.w.launched.getLsbD p

/-- DDX and DDY: the difference across the quad; +0 and WSTATUS.DERIV where there is no partner (R278). -/
def derivative (h : Hdr) (d a : Operand) (bit : Nat) (s : State) : Out :=
  issue s h fun c =>
    let partner := fun l => l ^^^ bit
    let val := fun l =>
      let here := c.w.read a l
      let there := c.w.cross a l (partner l) 0
      if !c.partnerOk (partner l) then (0 : Word)
      else if l / bit % 2 = 0 then fsub32 there here else fsub32 here there
    let w := c.w.writeResult c.act d (fun l => [val l])
    let lost := (lanesOf c.act).any fun l => !c.partnerOk (partner l)
    guardTraps s c [c.crossCheck [(d, 1)] [(a, 1)] a 1 partner]
      (.next (s.retire c { w with deriv := w.deriv || lost } (some a) none))

/-- DDX (R278). -/
def execDdx (h : Hdr) (_ty : Ty) (d a : Operand) (s : State) : Out := derivative h d a 1 s
/-- DDY (R278). -/
def execDdy (h : Hdr) (_ty : Ty) (d a : Operand) (s : State) : Out := derivative h d a 2 s

end Sys2Proof.Machine
end

