-- ==== Sys2Proof/Machine/Registers.lean ====
section
/-! DEFINITION. The registers in BAR0 (R5): what a write of each does, and what it reads. -/
namespace Sys2Proof.Machine

/-! ## Where a register lies -/

/-- The index of an offset in a table of `n` registers `stride` apart. -/
def tableIx (off base stride n : Nat) : Option Nat :=
  if off < base || (off - base) % stride != 0 || n ≤ (off - base) / stride then none else some ((off - base) / stride)

/-- What a virtual function reaches: its governor, launch queues, PMTCTL, DEVSTAT, mailbox and stage queues. -/
def vfReaches (off : Nat) : Bool :=
  (decide (0x3000 ≤ off) && decide (off < 0x3048)) || (decide (0x4000 ≤ off) && decide (off < 0x4018)) || off == 0x4100
    || off == 0x5000 || (decide (0x5400 ≤ off) && decide (off < 0x5420)) || (decide (0x8000 ≤ off) && decide (off < 0xA000))

/-- A register write as a plain change of state. -/
abbrev RegWrite := Option (State → Out)

def plainWrite (f : State → State) : RegWrite := some fun s => .next (f s)

/-! ## Writes -/

/-- Translation and context registers (R12, R21, R30, R33, R35, R387, R395). -/
def writeXlat (off : Nat) (val : DWord) : RegWrite :=
  let set := fun (f : Xlat → Xlat) => plainWrite fun s => { s with x := f s.x }
  match tableIx off 0 8 17, tableIx off 0x100 8 17, tableIx off 0x800 8 68, tableIx off 0xC00 8 34, tableIx off 0xE00 8 17 with
  | some n, _, _, _, _ => set fun x => { x with vmroot := Sparse.set 0 x.vmroot n (val &&& 0x0FFFFFFFFFFF0001) }
  | _, some n, _, _, _ => set fun x => { x with ctxroot := Sparse.set 0 x.ctxroot n (val &&& 0x0FFFFFFFFFFF0001) }
  | _, _, some n, _, _ => set fun x => { x with ctxrange := Sparse.set 0 x.ctxrange n (val &&& 0xFFFFFFFFFFFFFFFD) }
  | _, _, _, some n, _ =>
    let v := if n % 2 = 0 then val &&& 0x80FFFFFFFFFF0000 else val &&& 0x00FFFFFFFFFF0000
    plainWrite fun s => { s with ctxPool := Sparse.set 0 s.ctxPool n v }
  | _, _, _, _, some n => plainWrite fun s => { s with svcImg := Sparse.set 0 s.svcImg n (val &&& 0x80FFFFFFFFFFFFFC) }
  | none, none, none, none, none =>
    if off = 0x400 then
      if val.getLsbD 62 then some execTlbinvErrClear
      else plainWrite fun s => s.tlbCommand (bits val 61 59) (bits val 58 54) (.ofNat 16 (bits val 53 38)) (.ofNat 32 (bits val 31 0))
    else if off = 0x408 then set fun x => { x with invVa := val &&& 0x00FFFFFFFFFF0000 }
    else if off = 0x410 then set fun x => { x with fqBase := bits val 55 16 * 2 ^ 12, fqLog2 := bits val 4 0 }
    else if off = 0x418 then set fun x => { x with fqHead := .ofNat 32 (bits val 63 32) }
    else if off = 0x420 then
      match bits val 63 62 with
      | 0 => some (execFaultrespRetry (.ofNat 32 (bits val 31 0)))
      | 1 => some (execFaultrespCancel (.ofNat 32 (bits val 31 0)))
      | _ => plainWrite id
    else none

/-- The Timetable, L2 and compression registers (R55, R62-R64, R100). -/
def writeFabric (off : Nat) (val : DWord) : RegWrite :=
  match tableIx off 0x1100 8 12 with
  | some n => plainWrite fun s => { s with tt := { s.tt with shadow := s.tt.shadow.set n val } }
  | none =>
    if off = 0x1000 then plainWrite fun s => { s with l2 := { s.l2 with own := .ofNat 32 (bits val 31 0) } }
    else if off = 0x1160 then (if val.getLsbD 0 then some execTtctlCommit else plainWrite id)
    else if off = 0x1800 then
      some fun s =>
        let s := { s with cmp := { s.cmp with en := val.getLsbD 0 } }
        if val.getLsbD 1 then execCmpctlSync s else .next s
    else if off = 0x1808 then plainWrite fun s => { s with cmp := { s.cmp with hdr := bits val 51 16 * 2 ^ 16 } }
    else if off = 0x1810 then plainWrite fun s => { s with cmp := { s.cmp with map := bits val 51 25 * 2 ^ 25 } }
    else none

/-- The Landing's registers (R89). -/
def writeLanding (off : Nat) (val : DWord) : RegWrite :=
  let set := fun (f : LandRegs → LandRegs) => plainWrite fun s => { s with lreg := f s.lreg }
  match tableIx off 0x2100 8 34, tableIx off 0x2300 8 68 with
  | some n, _ =>
    if n % 2 = 0 then set fun l => { l with objbase := Sparse.set 0 l.objbase (n / 2) (val &&& 0x00FFFFFFFFFFFFC0) }
    else set fun l => { l with objctl := Sparse.set 0 l.objctl (n / 2) (val &&& 0xFFFF000001FFFFFF) }
  | _, some n => set fun l => { l with share := Sparse.set 0 l.share n val }
  | none, none =>
    if off = 0x2000 then some (if val.getLsbD 63 then execLandingEnable val else execLandingDisable val)
    else if off = 0x2008 then
      set fun l => { l with raytmo := bits val 39 24, flightmax := bits val 23 16, provwin := bits val 15 8, qframes := bits val 3 0 }
    else if off = 0x2010 then set fun l => { l with tickvm := .ofNat 17 (bits val 16 0) }
    else if off = 0x2018 then plainWrite id
    else if off = 0x2020 then
      set fun l => { l with qerr := l.qerr && !val.getLsbD 2, heapfull := l.heapfull && !val.getLsbD 1, setbusy := l.setbusy && !val.getLsbD 0 }
    else none

/-- The governor, launch queue and pre-emption registers of a function (R167, R381, R391). -/
def writeLaunch (fn off : Nat) (val : DWord) : RegWrite :=
  match tableIx off 0x3008 8 8 with
  | some n =>
    plainWrite fun s =>
      let v := s.govOf fn
      s.setGov fn (v.setStage n { v.stage n with minc := bits val 63 56, maxc := bits val 55 48 })
  | none =>
    if off = 0x3000 then some (if val.getLsbD 63 then execGovctlEnable (.ofNat 5 fn) val else execGovctlDisable (.ofNat 5 fn) val)
    else if off = 0x4000 then plainWrite fun s => s.setLq fn { s.lqOf fn with base := bits val 55 12 * 2 ^ 12 }
    else if off = 0x4008 then
      if val.getLsbD 63 then some (execLqctlEnable (.ofNat 5 fn) val) else plainWrite fun s => s.setLq fn ((s.lqOf fn).ctlWrite val)
    else if off = 0x4010 then some (execLqTailWrite (.ofNat 5 fn) (.ofNat 32 (bits val 31 0)))
    else if off = 0x4100 then
      if val.getLsbD 63 then some (execPreemptRequest (.ofNat 5 fn) val) else plainWrite fun s => s.setPmt fn ((s.pmtOf fn).fields val)
    else none

/-- Device status, error log, dump, mailbox (R402, R411, R413, R416). -/
def writeDevice (fn off : Nat) (val : DWord) : RegWrite :=
  let mb := fun (f : MbSt → MbSt) => plainWrite fun s => s.setMb fn (f (s.mbOf fn))
  if off = 0x5000 || off = 0x5418 then plainWrite id
  else if off = 0x5100 then plainWrite fun s => { s with err := { s.err with base := bits val 51 12 * 2 ^ 12, log2n := bits val 4 0 } }
  else if off = 0x5108 then plainWrite fun s => { s with err := { s.err with head := .ofNat 32 (bits val 63 32) } }
  else if off = 0x5200 then plainWrite fun s => { s with dumpBase := bits val 51 21 * 2 ^ 21, dumpEn := val.getLsbD 0 }
  else if off = 0x5400 then mb fun m => m.write val
  else if off = 0x5408 then mb fun m => { m with addr := bits val 63 12 * 2 ^ 12 }
  else if off = 0x5410 then mb fun m => { m with len := bits val 31 0 }
  else none

/-- A word of a stage queue's entry (R149). -/
def writeQueue (fn q word : Nat) (val : DWord) : State → Out := fun s =>
  let x := s.queue fn q
  match word with
  | 0 =>
    .next (s.setQueue fn q { x with v := val.getLsbD 63, recsz := bits val 62 61, log2n := bits val 60 56, base := bits val 55 0 })
  | 1 => .next (s.setQueue fn q { x with asid := .ofNat 16 (bits val 63 48), stage := bits val 47 45, cls := bits val 44 43 })
  | 2 => execQueuePointerWrite (.ofNat 5 fn) (.ofNat 8 q) val s
  | _ => .next (s.setQueue fn q { x with head := .ofNat 32 (bits val 63 32), hiwat := bits val 31 16, lowat := bits val 15 0 })

/-- Routes, collective groups and stage queues (R149, R406, R407). -/
def writeTables (fn off : Nat) (val : DWord) : RegWrite :=
  match tableIx off 0x6008 8 128, tableIx off 0x6800 8 128, tableIx off 0x8000 8 1024 with
  | some p, _, _ => plainWrite fun s => { s with izroute := Sparse.set 0 s.izroute (p + 1) (val &&& 0x800000000000000F) }
  | _, some n, _ => some (execCollGroupWrite (.ofNat 6 (n / 2)) (.ofNat 1 (n % 2)) val)
  | _, _, some n => some (writeQueue fn (n / 4) (n % 4) val)
  | none, none, none => none

/-- What a write of an offset by a function does; none where no register lies. -/
def regWrite (fn off : Nat) (val : DWord) : RegWrite :=
  (writeXlat off val).or <| (writeFabric off val).or <| (writeLanding off val).or <| (writeLaunch fn off val).or <|
    (writeDevice fn off val).or (writeTables fn off val)

/-- REGISTER_WRITE: a write to no register, or by a virtual function to one that it does not reach, is ignored. -/
def execRegisterWrite (fn : BitVec 5) (off : BitVec 26) (val : DWord) (s : State) : Out :=
  let f := fn.toNat
  if 17 ≤ f || !s.pcie.up || (f != 0 && !s.um.booted) then .fault .eventCannotOccur
  else if f != 0 && !vfReaches off.toNat then .next s
  else match regWrite f off.toNat val with
    | some w => w s
    | none => .next s

/-! ## Reads -/

/-- What the translation and context registers read. -/
def State.readXlat (s : State) (off : Nat) : Option DWord :=
  match tableIx off 0 8 17, tableIx off 0x100 8 17, tableIx off 0x800 8 68, tableIx off 0xC00 8 34, tableIx off 0xE00 8 17 with
  | some n, _, _, _, _ => some (Sparse.get 0 s.x.vmroot n)
  | _, some n, _, _, _ => some (Sparse.get 0 s.x.ctxroot n)
  | _, _, some n, _, _ => some (Sparse.get 0 s.x.ctxrange n)
  | _, _, _, some n, _ => some (Sparse.get 0 s.ctxPool n)
  | _, _, _, _, some n => some (Sparse.get 0 s.svcImg n)
  | none, none, none, none, none =>
    if off = 0x400 then some (.ofNat 64 (s.x.invBusy.toNat * 2 ^ 63 + s.x.invErr.toNat * 2 ^ 62))
    else if off = 0x408 then some s.x.invVa
    else if off = 0x410 then some (.ofNat 64 (s.x.fqBase / 2 ^ 12 * 2 ^ 16 + s.badRing'.toNat * 32 + s.x.fqLog2))
    else if off = 0x418 then some (s.x.fqHead ++ s.x.fqTail : DWord)
    else if off = 0x420 then some 0
    else none

/-- What the Timetable, L2 and compression registers read. -/
def State.readFabric (s : State) (off : Nat) : Option DWord :=
  match tableIx off 0x1100 8 12 with
  | some n => some (s.tt.shadow.getD n 0)
  | none =>
    if off = 0x1000 then some (s.l2.own.setWidth 64)
    else if off = 0x1160 then some (.ofNat 64 (s.tt.pend.toNat * 2))
    else if off = 0x1800 then some (.ofNat 64 (s.cmp.busy.toNat * 2 ^ 63 + s.cmp.en.toNat))
    else if off = 0x1808 then some (.ofNat 64 s.cmp.hdr)
    else if off = 0x1810 then some (.ofNat 64 s.cmp.map)
    else none

/-- What the Landing's registers read. -/
def State.readLanding (s : State) (off : Nat) : Option DWord :=
  let l := s.lreg
  match tableIx off 0x2100 8 34, tableIx off 0x2300 8 68 with
  | some n, _ => some (if n % 2 = 0 then Sparse.get 0 l.objbase (n / 2) else Sparse.get 0 l.objctl (n / 2))
  | _, some n => some (Sparse.get 0 l.share n)
  | none, none =>
    if off = 0x2000 then some (.ofNat 64 (l.en.toNat * 2 ^ 63 + l.size * 2 ^ 56 + l.base))
    else if off = 0x2008 then some (.ofNat 64 (l.raytmo * 2 ^ 24 + l.flightmax * 2 ^ 16 + l.provwin * 2 ^ 8 + l.qframes))
    else if off = 0x2010 then some (l.tickvm.setWidth 64)
    else if off = 0x2018 then some (l.frame.setWidth 64)
    else if off = 0x2020 then
      some (.ofNat 64 (l.onpend.toNat * 16 + l.offpend.toNat * 8 + l.qerr.toNat * 4 + l.heapfull.toNat * 2 + l.setbusy.toNat))
    else none

/-- What the governor, launch queue and pre-emption registers of a function read. -/
def State.readLaunch (s : State) (fn off : Nat) : Option DWord :=
  let v := s.govOf fn
  let q := s.lqOf fn
  let p := s.pmtOf fn
  match tableIx off 0x3008 8 8 with
  | some n =>
    let st := v.stage n
    let moving := v.moves.countP fun m => m.target == n || m.donor == n
    some (.ofNat 64 (st.minc * 2 ^ 56 + st.maxc * 2 ^ 48 + st.cores.length % 256 * 2 ^ 40 + moving % 256 * 2 ^ 32))
  | none =>
    if off = 0x3000 then some (.ofNat 64 (v.en.toNat * 2 ^ 63 + v.pool * 2 ^ 32 + v.period * 2 ^ 16 + v.held.length % 256 * 2 ^ 8))
    else if off = 0x4000 then some (.ofNat 64 q.base)
    else if off = 0x4008 then
      some (.ofNat 64 (q.en.toNat * 2 ^ 63 + q.dev.toNat * 2 ^ 62 + q.err.toNat * 2 ^ 61 + q.asid.toNat * 2 ^ 16 + q.log2n))
    else if off = 0x4010 then some (q.head ++ q.tail : DWord)
    else if off = 0x4100 then
      some (.ofNat 64 (p.act.isSome.toNat * 2 ^ 62 + p.hold.toNat * 2 ^ 61 + p.scope.toNat * 2 ^ 60 + p.cls * 2 ^ 58 + p.vm * 2 ^ 53))
    else none

/-- What the device, error log, dump and mailbox registers read. -/
def State.readDevice (s : State) (fn off : Nat) : Option DWord :=
  let m := s.mbOf fn
  if off = 0x5000 then some s.devstat
  else if off = 0x5100 then some (.ofNat 64 (s.err.base + s.err.log2n))
  else if off = 0x5108 then some (s.err.head ++ s.err.tail : DWord)
  else if off = 0x5200 then some (.ofNat 64 (s.dumpBase + s.dumpEn.toNat))
  else if off = 0x5400 then some (.ofNat 64 (m.slot * 2 ^ 16 + m.cmd))
  else if off = 0x5408 then some (.ofNat 64 m.addr)
  else if off = 0x5410 then some (.ofNat 64 m.len)
  else if off = 0x5418 then some (.ofNat 64 (m.busy.toNat * 2 ^ 63 + m.rlen % 2 ^ 32 * 2 ^ 16 + m.status))
  else none

/-- What the routes, collective groups and stage queues read. -/
def State.readTables (s : State) (fn off : Nat) : Option DWord :=
  match tableIx off 0x6008 8 128, tableIx off 0x6800 8 128, tableIx off 0x8000 8 1024 with
  | some p, _, _ => some (Sparse.get 0 s.izroute (p + 1))
  | _, some n, _ => let g := s.collGroup (n / 2); some (if n % 2 = 0 then g.1 else g.2)
  | _, _, some n => some ((s.queue fn (n / 4)).words.getD (n % 4) 0)
  | none, none, none => none

/-- What a function reads at an offset of its BAR0; where it reaches no register it reads zero. -/
def State.regRead (s : State) (fn off : Nat) : DWord :=
  if fn != 0 && !vfReaches off then 0
  else ((s.readXlat off).or <| (s.readFabric off).or <| (s.readLanding off).or <| (s.readLaunch fn off).or <|
    (s.readDevice fn off).or (s.readTables fn off)).getD 0

end Sys2Proof.Machine
end

