-- ==== Sys2Proof/Machine/Dispatch.lean ====
section
/-! DEFINITION. The dispatch: one arm per step of the opcode table, each one call of its meaning. -/
namespace Sys2Proof.Machine

/-- What a step of the opcode table does. -/
def exec (i : Instr) (s : State) : Host.Outcome State Fault Refusal :=
  match i with
  | .nop h => Sys2Proof.Machine.execNop h s
  | .trap h code => Sys2Proof.Machine.execTrap h code s
  | .bkpt h code => Sys2Proof.Machine.execBkpt h code s
  | .yieldI h => Sys2Proof.Machine.execYield h s
  | .srd h num d => Sys2Proof.Machine.execSrd h num d s
  | .swr h num a => Sys2Proof.Machine.execSwr h num a s
  | .icinv h scope => Sys2Proof.Machine.execIcinv h scope s
  | .wsync h => Sys2Proof.Machine.execWsync h s
  | .lnch h d a => Sys2Proof.Machine.execLnch h d a s
  | .bra h target => Sys2Proof.Machine.execBra h target s
  | .brc h c target => Sys2Proof.Machine.execBrc h c target s
  | .jmask h d => Sys2Proof.Machine.execJmask h d s
  | .join h a => Sys2Proof.Machine.execJoin h a s
  | .ifI h c target => Sys2Proof.Machine.execIf h c target s
  | .elseI h target => Sys2Proof.Machine.execElse h target s
  | .endifI h => Sys2Proof.Machine.execEndif h s
  | .loop h => Sys2Proof.Machine.execLoop h s
  | .breakI h c n => Sys2Proof.Machine.execBreak h c n s
  | .cont h c n => Sys2Proof.Machine.execCont h c n s
  | .endloop h target => Sys2Proof.Machine.execEndloop h target s
  | .call h f4 target => Sys2Proof.Machine.execCall h f4 target s
  | .calli h f4 a b => Sys2Proof.Machine.execCalli h f4 a b s
  | .ret h => Sys2Proof.Machine.execRet h s
  | .exit h => Sys2Proof.Machine.execExit h s
  | .waitc h ld st cp tl => Sys2Proof.Machine.execWaitc h ld st cp tl s
  | .twait h any a => Sys2Proof.Machine.execTwait h any a s
  | .tfirst h d a => Sys2Proof.Machine.execTfirst h d a s
  | .barArrive h lvl n => Sys2Proof.Machine.execBarArrive h lvl n s
  | .barWait h lvl n a => Sys2Proof.Machine.execBarWait h lvl n a s
  | .barSync h lvl n => Sys2Proof.Machine.execBarSync h lvl n s
  | .barph h lvl n d => Sys2Proof.Machine.execBarph h lvl n d s
  | .iadd h ty sat d a b => Sys2Proof.Machine.execIadd h ty sat d a b s
  | .iaddc h ty sub d a b c => Sys2Proof.Machine.execIaddc h ty sub d a b c s
  | .isub h ty sat d a b => Sys2Proof.Machine.execIsub h ty sat d a b s
  | .imul h ty d a b => Sys2Proof.Machine.execImul h ty d a b s
  | .imulh h ty d a b => Sys2Proof.Machine.execImulh h ty d a b s
  | .imad h ty sat d a b c => Sys2Proof.Machine.execImad h ty sat d a b c s
  | .iadd64 h ty d a b => Sys2Proof.Machine.execIadd64 h ty d a b s
  | .imad64 h ty d a b c => Sys2Proof.Machine.execImad64 h ty d a b c s
  | .imin h ty d a b => Sys2Proof.Machine.execImin h ty d a b s
  | .imax h ty d a b => Sys2Proof.Machine.execImax h ty d a b s
  | .iabs h ty sat d a => Sys2Proof.Machine.execIabs h ty sat d a s
  | .icmp h ty cond d a b => Sys2Proof.Machine.execIcmp h ty cond d a b s
  | .isel h ty d a b c => Sys2Proof.Machine.execIsel h ty d a b c s
  | .idot4 h ty sat d a b c => Sys2Proof.Machine.execIdot4 h ty sat d a b c s
  | .mov h ty d a => Sys2Proof.Machine.execMov h ty d a s
  | .movi h ty d imm => Sys2Proof.Machine.execMovi h ty d imm s
  | .shl h ty d a b => Sys2Proof.Machine.execShl h ty d a b s
  | .shr h ty d a b => Sys2Proof.Machine.execShr h ty d a b s
  | .sar h ty d a b => Sys2Proof.Machine.execSar h ty d a b s
  | .rotl h ty d a b => Sys2Proof.Machine.execRotl h ty d a b s
  | .fshl h ty d a b c => Sys2Proof.Machine.execFshl h ty d a b c s
  | .fshr h ty d a b c => Sys2Proof.Machine.execFshr h ty d a b c s
  | .and h ty d a b => Sys2Proof.Machine.execAnd h ty d a b s
  | .or h ty d a b => Sys2Proof.Machine.execOr h ty d a b s
  | .xor h ty d a b => Sys2Proof.Machine.execXor h ty d a b s
  | .andn h ty d a b => Sys2Proof.Machine.execAndn h ty d a b s
  | .not h ty d a => Sys2Proof.Machine.execNot h ty d a s
  | .bfx h ty d a b => Sys2Proof.Machine.execBfx h ty d a b s
  | .bfi h ty d a b c => Sys2Proof.Machine.execBfi h ty d a b c s
  | .clz h ty d a => Sys2Proof.Machine.execClz h ty d a s
  | .ctz h ty d a => Sys2Proof.Machine.execCtz h ty d a s
  | .popc h ty d a => Sys2Proof.Machine.execPopc h ty d a s
  | .brev h ty d a => Sys2Proof.Machine.execBrev h ty d a s
  | .bilv h ty d a b => Sys2Proof.Machine.execBilv h ty d a b s
  | .bdil h ty d a => Sys2Proof.Machine.execBdil h ty d a s
  | .prmt h ty d a b c => Sys2Proof.Machine.execPrmt h ty d a b c s
  | .fadd h ty m d a b => Sys2Proof.Machine.execFadd h ty m d a b s
  | .fsub h ty m d a b => Sys2Proof.Machine.execFsub h ty m d a b s
  | .fmul h ty m d a b => Sys2Proof.Machine.execFmul h ty m d a b s
  | .ffma h ty m d a b c => Sys2Proof.Machine.execFfma h ty m d a b c s
  | .fmin h ty m d a b => Sys2Proof.Machine.execFmin h ty m d a b s
  | .fmax h ty m d a b => Sys2Proof.Machine.execFmax h ty m d a b s
  | .fcmp h ty unord cond d a b => Sys2Proof.Machine.execFcmp h ty unord cond d a b s
  | .frint h ty dir d a => Sys2Proof.Machine.execFrint h ty dir d a s
  | .hadd2 h ty m d a b => Sys2Proof.Machine.execHadd2 h ty m d a b s
  | .hmul2 h ty m d a b => Sys2Proof.Machine.execHmul2 h ty m d a b s
  | .hfma2 h ty m d a b c => Sys2Proof.Machine.execHfma2 h ty m d a b c s
  | .hmin2 h ty m d a b => Sys2Proof.Machine.execHmin2 h ty m d a b s
  | .hmax2 h ty m d a b => Sys2Proof.Machine.execHmax2 h ty m d a b s
  | .frcp h ty d a => Sys2Proof.Machine.execFrcp h ty d a s
  | .frsq h ty d a => Sys2Proof.Machine.execFrsq h ty d a s
  | .fsqrt h ty d a => Sys2Proof.Machine.execFsqrt h ty d a s
  | .fex2 h ty d a => Sys2Proof.Machine.execFex2 h ty d a s
  | .flg2 h ty d a => Sys2Proof.Machine.execFlg2 h ty d a s
  | .fsin h ty d a => Sys2Proof.Machine.execFsin h ty d a s
  | .fcos h ty d a => Sys2Proof.Machine.execFcos h ty d a s
  | .cvt h dst src hi d a => Sys2Proof.Machine.execCvt h dst src hi d a s
  | .pack8 h ty hi d a b c => Sys2Proof.Machine.execPack8 h ty hi d a b c s
  | .unpk8 h ty sel d a => Sys2Proof.Machine.execUnpk8 h ty sel d a s
  | .packd h ty d a b => Sys2Proof.Machine.execPackd h ty d a b s
  | .shfl h ty mode d a b => Sys2Proof.Machine.execShfl h ty mode d a b s
  | .vote h ty mode d a => Sys2Proof.Machine.execVote h ty mode d a s
  | .matchI h ty d a => Sys2Proof.Machine.execMatch h ty d a s
  | .redw h ty op d a => Sys2Proof.Machine.execRedw h ty op d a s
  | .scanw h ty op excl d a => Sys2Proof.Machine.execScanw h ty op excl d a s
  | .ddx h ty d a => Sys2Proof.Machine.execDdx h ty d a s
  | .ddy h ty d a => Sys2Proof.Machine.execDdy h ty d a s
  | .quad h ty mode n d a => Sys2Proof.Machine.execQuad h ty mode n d a s
  | .rdlane h ty d a b => Sys2Proof.Machine.execRdlane h ty d a b s
  | .ld h m d a b off => Sys2Proof.Machine.execLd h m d a b off s
  | .st h m d a b off => Sys2Proof.Machine.execSt h m d a b off s
  | .ldp h ty n off d a => Sys2Proof.Machine.execLdp h ty n off d a s
  | .discard h d a b off => Sys2Proof.Machine.execDiscard h d a b off s
  | .pref h l2 a b off => Sys2Proof.Machine.execPref h l2 a b off s
  | .atomAdd h m d a b off x => Sys2Proof.Machine.execAtomAdd h m d a b off x s
  | .atomMin h m d a b off x => Sys2Proof.Machine.execAtomMin h m d a b off x s
  | .atomMax h m d a b off x => Sys2Proof.Machine.execAtomMax h m d a b off x s
  | .atomAnd h m d a b off x => Sys2Proof.Machine.execAtomAnd h m d a b off x s
  | .atomOr h m d a b off x => Sys2Proof.Machine.execAtomOr h m d a b off x s
  | .atomXor h m d a b off x => Sys2Proof.Machine.execAtomXor h m d a b off x s
  | .atomExch h m d a b off x => Sys2Proof.Machine.execAtomExch h m d a b off x s
  | .atomCas h m d a b off cmp x => Sys2Proof.Machine.execAtomCas h m d a b off cmp x s
  | .atomFaddF32 h m d a b off x => Sys2Proof.Machine.execAtomFaddF32 h m d a b off x s
  | .atomFaddB2 h m d a b off x => Sys2Proof.Machine.execAtomFaddB2 h m d a b off x s
  | .redAdd h m a b off x => Sys2Proof.Machine.execRedAdd h m a b off x s
  | .redMin h m a b off x => Sys2Proof.Machine.execRedMin h m a b off x s
  | .redMax h m a b off x => Sys2Proof.Machine.execRedMax h m a b off x s
  | .redAnd h m a b off x => Sys2Proof.Machine.execRedAnd h m a b off x s
  | .redOr h m a b off x => Sys2Proof.Machine.execRedOr h m a b off x s
  | .redXor h m a b off x => Sys2Proof.Machine.execRedXor h m a b off x s
  | .redFaddF32 h m a b off x => Sys2Proof.Machine.execRedFaddF32 h m a b off x s
  | .redFaddB2 h m a b off x => Sys2Proof.Machine.execRedFaddB2 h m a b off x s
  | .fence h m => Sys2Proof.Machine.execFence h m s
  | .fenceo h => Sys2Proof.Machine.execFenceo h s
  | .fencer h m => Sys2Proof.Machine.execFencer h m s
  | .copy h dscr sscr d a b tag => Sys2Proof.Machine.execCopy h dscr sscr d a b tag s
  | .copym h d a b tag mask bar => Sys2Proof.Machine.execCopym h d a b tag mask bar s
  | .gather h iscr d a b tag row count => Sys2Proof.Machine.execGather h iscr d a b tag row count s
  | .coll h ty op sscr dscr d a b tag group => Sys2Proof.Machine.execColl h ty op sscr dscr d a b tag group s
  | .qenq h rs d b vr => Sys2Proof.Machine.execQenq h rs d b vr s
  | .qdeq h rs d b vr => Sys2Proof.Machine.execQdeq h rs d b vr s
  | .qstat h d b => Sys2Proof.Machine.execQstat h d b s
  | .spawn h d a b => Sys2Proof.Machine.execSpawn h d a b s
  | .osclook h staleok d a => Sys2Proof.Machine.execOsclook h staleok d a s
  | .oscwait h d a b => Sys2Proof.Machine.execOscwait h d a b s
  | .oscfill h d a => Sys2Proof.Machine.execOscfill h d a s
  | .oscinv h a => Sys2Proof.Machine.execOscinv h a s
  | .osctick h => Sys2Proof.Machine.execOsctick h s
  | .oscprov h d a => Sys2Proof.Machine.execOscprov h d a s
  | .tex h cone d a b vg => Sys2Proof.Machine.execTex h cone d a b vg s
  | .texqSize h d a b => Sys2Proof.Machine.execTexqSize h d a b s
  | .texqLod h cone d a b vg => Sys2Proof.Machine.execTexqLod h cone d a b vg s
  | .trace h a tag => Sys2Proof.Machine.execTrace h a tag s
  | .matev h a tag => Sys2Proof.Machine.execMatev h a tag s
  | .vemit h a b draw => Sys2Proof.Machine.execVemit h a b draw s
  | .tdef h d a => Sys2Proof.Machine.execTdef h d a s
  | .tqry h d a => Sys2Proof.Machine.execTqry h d a s
  | .tmma h bt d a b tag => Sys2Proof.Machine.execTmma h bt d a b tag s
  | .tmmd h bt d a b tag => Sys2Proof.Machine.execTmmd h bt d a b tag s
  | .tvmm h d a b tag tw => Sys2Proof.Machine.execTvmm h d a b tag tw s
  | .tmms h d a b tag => Sys2Proof.Machine.execTmms h d a b tag s
  | .tzero h d => Sys2Proof.Machine.execTzero h d s
  | .taccld h d a tag => Sys2Proof.Machine.execTaccld h d a tag s
  | .taccst h act d a b tag scale => Sys2Proof.Machine.execTaccst h act d a b tag scale s
  | .tfft h d a tag => Sys2Proof.Machine.execTfft h d a tag s
  | .tift h d a tag => Sys2Proof.Machine.execTift h d a tag s
  | .xfm h tr d a tag => Sys2Proof.Machine.execXfm h tr d a tag s
  | .xchain h act d a tag => Sys2Proof.Machine.execXchain h act d a tag s
  | .tabld h a tag gen => Sys2Proof.Machine.execTabld h a tag gen s
  | .counterDone wave idx lanes => Sys2Proof.Machine.execCounterDone wave idx lanes s
  | .engineCompletion op => Sys2Proof.Machine.execEngineCompletion op s
  | .failedOperation op done => Sys2Proof.Machine.execFailedOperation op done s
  | .copymArrival op idx => Sys2Proof.Machine.execCopymArrival op idx s
  | .faultRecordPost => Sys2Proof.Machine.execFaultRecordPost s
  | .faultrespRetry id => Sys2Proof.Machine.execFaultrespRetry id s
  | .faultrespCancel id => Sys2Proof.Machine.execFaultrespCancel id s
  | .tlbinvEverything => Sys2Proof.Machine.execTlbinvEverything s
  | .tlbinvVm vm => Sys2Proof.Machine.execTlbinvVm vm s
  | .tlbinvAsid vm asid => Sys2Proof.Machine.execTlbinvAsid vm asid s
  | .tlbinvVaRange vm asid pages => Sys2Proof.Machine.execTlbinvVaRange vm asid pages s
  | .tlbinvContext vm => Sys2Proof.Machine.execTlbinvContext vm s
  | .tlbinvErrClear => Sys2Proof.Machine.execTlbinvErrClear s
  | .tlbinvDone => Sys2Proof.Machine.execTlbinvDone s
  | .priResponse idx success page => Sys2Proof.Machine.execPriResponse idx success page s
  | .ttctlCommit => Sys2Proof.Machine.execTtctlCommit s
  | .timetableCopy => Sys2Proof.Machine.execTimetableCopy s
  | .classIdle die cls => Sys2Proof.Machine.execClassIdle die cls s
  | .nocFlitReceive link cls left crcOk => Sys2Proof.Machine.execNocFlitReceive link cls left crcOk s
  | .nocRetry link cls => Sys2Proof.Machine.execNocRetry link cls s
  | .patrolScrub die granule outcome => Sys2Proof.Machine.execPatrolScrub die granule outcome s
  | .hbmRefresh die channel => Sys2Proof.Machine.execHbmRefresh die channel s
  | .cmpctlSync => Sys2Proof.Machine.execCmpctlSync s
  | .cmpctlSyncDone => Sys2Proof.Machine.execCmpctlSyncDone s
  | .tableSlotReplace expander => Sys2Proof.Machine.execTableSlotReplace expander s
  | .landingEnable val => Sys2Proof.Machine.execLandingEnable val s
  | .landingInitDone => Sys2Proof.Machine.execLandingInitDone s
  | .landingDisable val => Sys2Proof.Machine.execLandingDisable val s
  | .landingDisableDone => Sys2Proof.Machine.execLandingDisableDone s
  | .oscwaitTimeout wave idx lanes => Sys2Proof.Machine.execOscwaitTimeout wave idx lanes s
  | .rayTimeout op ray => Sys2Proof.Machine.execRayTimeout op ray s
  | .rayRelookup op ray => Sys2Proof.Machine.execRayRelookup op ray s
  | .queuePointerWrite fn q val => Sys2Proof.Machine.execQueuePointerWrite fn q val s
  | .queueCommit fn q => Sys2Proof.Machine.execQueueCommit fn q s
  | .collJoinTimeout group => Sys2Proof.Machine.execCollJoinTimeout group s
  | .collGroupWrite group word val => Sys2Proof.Machine.execCollGroupWrite group word val s
  | .lqTailWrite fn tail => Sys2Proof.Machine.execLqTailWrite fn tail s
  | .lqctlEnable fn val => Sys2Proof.Machine.execLqctlEnable fn val s
  | .launchAccept vm => Sys2Proof.Machine.execLaunchAccept vm s
  | .blockPlace core => Sys2Proof.Machine.execBlockPlace core s
  | .gangReserve cls => Sys2Proof.Machine.execGangReserve cls s
  | .blockEnd block => Sys2Proof.Machine.execBlockEnd block s
  | .gridEnd grid => Sys2Proof.Machine.execGridEnd grid s
  | .berthSail core berth => Sys2Proof.Machine.execBerthSail core berth s
  | .sailedWavePlace idx => Sys2Proof.Machine.execSailedWavePlace idx s
  | .governorEvaluation fn => Sys2Proof.Machine.execGovernorEvaluation fn s
  | .govctlEnable fn val => Sys2Proof.Machine.execGovctlEnable fn val s
  | .govctlDisable fn val => Sys2Proof.Machine.execGovctlDisable fn val s
  | .spillWrite core => Sys2Proof.Machine.execSpillWrite core s
  | .refill wave => Sys2Proof.Machine.execRefill wave s
  | .frameRecordFetch wave => Sys2Proof.Machine.execFrameRecordFetch wave s
  | .preemptRequest fn val => Sys2Proof.Machine.execPreemptRequest fn val s
  | .preemptSaveDone fn block => Sys2Proof.Machine.execPreemptSaveDone fn block s
  | .serviceHandlerStart cluster => Sys2Proof.Machine.execServiceHandlerStart cluster s
  | .resume cluster => Sys2Proof.Machine.execResume cluster s
  | .killwave cluster => Sys2Proof.Machine.execKillwave cluster s
  | .killblock cluster => Sys2Proof.Machine.execKillblock cluster s
  | .windowWsync cluster => Sys2Proof.Machine.execWindowWsync cluster s
  | .rangeLockEntryClear core entry => Sys2Proof.Machine.execRangeLockEntryClear core entry s
  | .landingSetSelect cluster val => Sys2Proof.Machine.execLandingSetSelect cluster val s
  | .reservationGrant cluster => Sys2Proof.Machine.execReservationGrant cluster s
  | .reservationPromote cluster entry => Sys2Proof.Machine.execReservationPromote cluster entry s
  | .triangleRasterise grid wave q => Sys2Proof.Machine.execTriangleRasterise grid wave q s
  | .rasterDone grid => Sys2Proof.Machine.execRasterDone grid s
  | .clusterFence cluster => Sys2Proof.Machine.execClusterFence cluster s
  | .channelRetirement die channel => Sys2Proof.Machine.execChannelRetirement die channel s
  | .deviceReset => Sys2Proof.Machine.execDeviceReset s
  | .fatalError cause => Sys2Proof.Machine.execFatalError cause s
  | .hostBar2Access fn off write data => Sys2Proof.Machine.execHostBar2Access fn off write data s
  | .izlynPeerAccess port pa kind data => Sys2Proof.Machine.execIzlynPeerAccess port pa kind data s
  | .izlynLinkTraining port theirs => Sys2Proof.Machine.execIzlynLinkTraining port theirs s
  | .umcorFailover => Sys2Proof.Machine.execUmcorFailover s
  | .attest fn => Sys2Proof.Machine.execAttest fn s
  | .identity fn => Sys2Proof.Machine.execIdentity fn s
  | .image fn => Sys2Proof.Machine.execImage fn s
  | .activate fn => Sys2Proof.Machine.execActivate fn s
  | .dump fn => Sys2Proof.Machine.execDump fn s
  | .mailboxReply fn => Sys2Proof.Machine.execMailboxReply fn s
  | .errorLogRecord => Sys2Proof.Machine.execErrorLogRecord s
  | .errorAggregation => Sys2Proof.Machine.execErrorAggregation s
  | .registerWrite fn off val => Sys2Proof.Machine.execRegisterWrite fn off val s
  | .translationWalkDone wave => Sys2Proof.Machine.execTranslationWalkDone wave s
  | .pcieLinkTraining up width rate flit => Sys2Proof.Machine.execPcieLinkTraining up width rate flit s
  | .pciePortError status => Sys2Proof.Machine.execPciePortError status s
  | .devicePowerOff => Sys2Proof.Machine.execDevicePowerOff s

end Sys2Proof.Machine
end

