-- ==== Sys2Proof/Machine/Reissue.lean ====
section
/-! DEFINITION. The loads that a pre-emption discarded, issued again before the wave's next instruction (R392): the same access on
the captured operands, translated afresh.  A reissue is a step of its own (DEDUCED, log entry 36). -/
namespace Sys2Proof.Machine

/-- The first counted instruction of a wave that is to be issued again. -/
def Wave.toReissue (w : Wave) : Option (Nat × Counted) := w.counted.find? fun e => e.2.discarded

/-- The header of an instruction that can be discarded. -/
def hdrOf : Instr → Hdr
  | .ld h .. | .ldp h .. | .tex h .. | .texqLod h .. | .texqSize h .. | .qstat h .. | .oscwait h .. => h
  | _ => ⟨.always, ⟨false, 0, false, false⟩⟩

/-- What a captured lane holds. -/
def Counted.valsOf (n : Counted) (l : Nat) : List DWord := ((n.vals.find? fun x => x.1 == l).map Prod.snd).getD []
/-- Captured value `j` of a lane. -/
def Counted.val (n : Counted) (l j : Nat) : Nat := ((n.valsOf l).getD j 0).toNat
/-- A captured group of four words. -/
def Counted.group (n : Counted) (l j : Nat) : List Word := (List.range 4).map fun i => .ofNat 32 (n.val l (j + i))
/-- The destination keys of a lane. -/
def Counted.keysOf (n : Counted) (l : Nat) : List Nat := (n.keys.filter fun k => k.1 == l).map Prod.snd

/-- The writes of results to the captured destination; a K destination belongs to the lowest lane of the issue. -/
def Counted.writesTo (n : Counted) (d : Operand) (val : Nat → List Word × Bool) : List PendWrite :=
  let lanes := match d with
    | .k _ => (lanesOf n.lanes).filter fun l => (n.vals.head?.map Prod.fst) == some l
    | _ => lanesOf n.lanes
  lanes.flatMap fun l =>
    (((n.keysOf l).zip (val l).1).filter fun kv => kv.1 != noKey).map fun kv => ⟨l, kv.1, kv.2, (val l).2⟩

/-- The reissued instruction is counted as issued now. -/
def State.reissued (s : State) (wi idx : Nat) (n : Counted) : Out :=
  .next (s.updWave wi fun w =>
    { w with counted := w.counted.map fun e => if e.1 == idx then (idx, { n with discarded := false, moved := false }) else e })

/-- The access of a discarded instruction. -/
def State.reissueAs (s : State) (c : Ctx) (idx : Nat) (n : Counted) : Out :=
  let lanes := lanesOf n.lanes
  let accs := lanes.map fun l => (l, n.val l 0)
  let va := n.val (lanes.headD 0) 0
  let fin := fun (d : Operand) (s1 : State) (val : Nat → List Word × Bool) =>
    s1.reissued c.wi idx { n with writes := n.writesTo d val }
  match n.again with
  | some (.ld _ m d _ _ _) =>
    if m.scr then
      scrTurn s c.b <| thenDo (fin d s fun l =>
        let bs := (span (n.val l 0) (Ty.bytes m.ty)).map c.b.scrByte
        (loadWords m.ty (bs.map Prod.fst), bs.any Prod.snd)) fun s => s.occupyScr c.wi c.b (bankClk accs (Ty.bytes m.ty))
    else reach s c .load accs (Ty.bytes m.ty) <|
      let wide := m.ord == .acq && wideScope m.scope
      let r := c.loadAll (if wide then s.acquire c.b.core m.scope else s) wide (Ty.bytes m.ty) accs
      fin d r.1 fun l => let x := laneBytes r.2 l; (loadWords m.ty x.1, x.2)
  | some (.ldp _ ty k _ d _) =>
    let pw := (c.window k.toNat).getD (0, 0)
    ldpReach s c ty pw.1 pw.2 accs (ldpBytes pw.1 pw.2 accs (Ty.bytes ty)) (fin d)
  | some (.tex _ cone d ..) => texSample s c cone va (fun l => n.group l 1) (fun l => n.group l 5) (fin d) false
  | some (.texqLod _ cone d ..) =>
    texQuery s c va (fun t l => t.lodWords cone (n.group l 1) (n.group l 5)) (fin d) false
  | some (.texqSize _ d ..) => texQuery s c va (fun t l => t.sizeWords (.ofNat 32 (n.val l 1))) (fin d) false
  | some (.qstat _ d _) =>
    let x := s.queue c.g.vm va
    let v : Word := if 256 ≤ va || !x.valid then 0xFFFFFFFF else x.commit - x.head
    fin d s fun _ => ([v], false)
  | some (.oscwait ..) =>
    let t := n.val (lanes.headD 0) 1
    let x := waitLanes c.g.vm (fun l => .ofNat 32 (n.val l 0)) n.keysOf t (s.waveWatcher c.wi) s lanes
    (if x.2.2.2 then x.1.l1Acquire c.b.core else x.1).reissued c.wi idx { n with writes := x.2.1, parked := x.2.2.1 }
  | _ => s.reissued c.wi idx n

/-- A reissue that trapped (R36): the record names the PC of the instruction, whose result never comes; it is not counted any
more (DEDUCED, log entry 42). -/
def State.reissueTrap (s : State) (wi idx : Nat) (n : Counted) : State :=
  s.updWave wi fun w => { w.bump (· - 1) n.ctr with
    counted := w.counted.filter fun e => e.1 != idx
    trap := w.trap.map fun r => { r with pc := n.pc } }

/-- Issue the first discarded instruction of a wave again. -/
def State.reissue (s : State) (wi idx : Nat) (n : Counted) : Out :=
  let w := s.wave wi
  let b := s.block w.block
  let c : Ctx := ⟨wi, w, n.slotB, n.iw, w.block, b, s.grid b.grid, hdrOf (n.again.getD (.nop ⟨.always, ⟨false, 0, false, false⟩⟩)), n.lanes⟩
  match s.reissueAs c idx n with
  | .next t => .next (if (t.wave wi).life == .trapped then t.reissueTrap wi idx n else s.markMoved t wi idx)
  | r => r

end Sys2Proof.Machine
end

