-- ==== Sys2Proof/Machine/SoftErrors.lean ====
section
/-! DEFINITION. Soft errors of the on-chip stores (R71, R193): what an error does when it strikes, and REG_POISON for the F, X, J and
tensor entries that an instruction reads.  The errors come from outside (DESIGN CHOICE, log entry 41). -/
namespace Sys2Proof.Machine

/-! ## Counting and logging (R411, R417) -/

/-- A corrected error of a unit is counted. -/
def State.countCorrected (s : State) (u : Nat) : State :=
  let c : CeSt := Sparse.get {} s.soft.corrected u
  let new : CeSt := ⟨c.count + 1, if c.count = 0 then s.clk else c.since⟩
  { s with soft := { s.soft with corrected := Sparse.set {} s.soft.corrected u new } }

/-- An event of a cluster. -/
def State.logCluster (s : State) (event cl vm : Nat) (detail : Nat) : State :=
  s.logError event 2 (cl / 5) (cl % 5) vm (.ofNat 64 detail)

/-- The PA of a location, or its host address. -/
def addressOf (k : Nat) : Nat := if isHbm k then paOfKey k else if k < hostBase then k else k - hostBase

/-- The VM of a block. -/
def State.vmOf (s : State) (bi : Nat) : Nat := (s.grid (s.block bi).grid).vm

/-! ## What an error does -/

/-- An uncorrectable error in a sector of an L1: a clean sector is invalidated, a dirty one goes home poisoned (R71), in class BG, since
no block sends it (DESIGN CHOICE, log entry 51). -/
def State.l1SectorError (s : State) (core k : Nat) : State :=
  match (s.core core).line k with
  | none => s
  | some ln =>
    let q := k / 64 % 4
    if !ln.valid.getLsbD q && !ln.secDirty q then s
    else
      let s := s.sendHome 3 { ln with poison := ln.poison ||| (1#4 <<< q) } [q]
      (s.updCore core fun c => c.mapLines fun x => if x.loc == ln.loc then (x.invalidate [q]).clean [q] else x).logCluster
        0x11 (clusterOf core) 31 (addressOf k)

/-- An uncorrectable error in a line of an instruction cache, which is never dirty: it is dropped. -/
def State.fetchLineError (s : State) (core k : Nat) : State :=
  if (s.core core).icache.any fun ln => ln.loc == k / 256 * 256 then
    (s.updCore core fun c => { c with icache := c.icache.filter fun ln => ln.loc != k / 256 * 256 }).logCluster
      0x11 (clusterOf core) 31 (addressOf k)
  else s

/-- A tag entry of an instruction cache that cannot be read retires its way, with the line it names, which is never dirty (R71). -/
def State.fetchTagError (s : State) (core set way : Nat) (line : Option Nat) : State :=
  let c := s.core core
  let held := c.icache.filter fun ln => ln.set == set
  let retire := fun (k : Option Nat) => (s.updCore core fun c =>
    { c with icache := c.icache.filter (fun ln => some ln.loc != k), iretired := (set, way) :: c.iretired }).logCluster
      0x13 (clusterOf core) 31 way
  if 64 ≤ set || 8 ≤ way || c.iretired.contains (set, way) then s
  else match line with
    | none => if c.iways set ≤ held.length then s else retire none
    | some k => if held.any fun ln => ln.loc == k / 256 * 256 then retire (some (k / 256 * 256)) else s

/-- The dirty bytes of a sector of an L2 line. -/
def L2Line.secDirty (e : L2Line) (q : Nat) : Bool := (e.dirty >>> (64 * q)).setWidth 64 != 0#64

/-- An uncorrectable error in a sector of an L2: a clean sector is invalidated, a dirty one goes to HBM poisoned (R71). -/
def State.l2SectorError (s : State) (k : Nat) : State :=
  let base := k / 256 * 256
  let q := k / 64 % 4
  match s.l2.lines.find? fun e => e.loc == base with
  | none => s
  | some e =>
    if !e.valid.getLsbD q && !e.secDirty q then s
    else
      let s1 := if e.secDirty q then
          (if s.cmp.stored = [] then s else s.setBlockOf (base / 256) []).setSecPoison k true
        else s
      let drop := fun (x : L2Line) =>
        if x.loc == base then { x with valid := x.valid &&& ~~~ (1#4 <<< q), dirty := cleanBytes x.dirty [q] } else x
      { s1 with l2 := { s1.l2 with lines := s1.l2.lines.map drop } }.logError
        0x11 1 (k / 2 ^ 37) 0 31 (.ofNat 64 (addressOf k))

/-- A tag entry of an L1 that cannot be read retires its way, with the line it names (R71). -/
def State.l1TagError (s : State) (core set way : Nat) (line : Option Nat) : State :=
  let c := s.core core
  let held := c.l1.filter fun ln => l1Set ln.loc == set
  let room := c.waysOf set
  if 128 ≤ set || 8 ≤ way || c.retired.contains (set, way) then s
  else match line with
    | none =>
      if room ≤ held.length then s
      else (s.updCore core fun c => { c with retired := (set, way) :: c.retired }).logCluster 0x13 (clusterOf core) 31 way
    | some k =>
      match held.find? fun ln => ln.loc == k / 256 * 256 with
      | none => s
      | some ln =>
        let s := s.sendHome 3 { ln with poison := 0xF } allSectors
        (s.updCore core fun c =>
          { c with l1 := c.l1.filter (fun x => x.loc != ln.loc), retired := (set, way) :: c.retired }).logCluster
          0x13 (clusterOf core) 31 way

/-- A tag entry of an L2 that cannot be read retires its way, with the line it holds (R71). -/
def State.l2TagError (s : State) (set way : Nat) : State :=
  if 2 ^ 17 ≤ set || 16 ≤ way || s.l2.retired.contains (set, way) then s
  else
    let here := fun (e : L2Line) => l2Set e.loc == set && e.way == way
    let s1 := match s.l2.lines.find? here with
      | some e => allSectors.foldl (fun (s : State) q => if e.secDirty q then s.setSecPoison (e.loc + 64 * q) true else s) s
      | none => s
    { s1 with l2 := { s1.l2 with lines := s1.l2.lines.filter (fun e => !here e), retired := (set, way) :: s1.l2.retired } }.logError
      0x13 1 (set / 2 ^ 14) 0 31 (.ofNat 64 way)

/-- A block that holds its allocations on its core. -/
def State.holdsBlock (s : State) (bi : Nat) : Bool := decide (bi < s.blocks.length) && (s.block bi).life == .resident

/-- The register words that an error takes with it: the register files beside the main file and K are protected by register
(R193). -/
def wholeRegister (k : Nat) : List Nat :=
  if k < oKey 0 0 then [k] else if k < kKey 0 then span (k / 32 * 32) 32 else if k < flagKey 0 0 then [k]
  else if k < jKey 0 then span (k / 32 * 32) 32 else [k]

/-- A key that names a register word. -/
def regKeyOk (w : Wave) (k : Nat) : Bool :=
  decide (k < 32 * w.ringN) || (decide (oKey 0 0 ≤ k) && decide (k < kKey 64)) || (decide (flagKey 0 0 ≤ k) && decide (k < jKey 8))

/-- What a soft error does to the machine when it strikes; one that names nothing there has no effect. -/
def State.struck (s : State) : Upset → State
  | .correctedDie d => if d < 8 then s.countCorrected d else s
  | .correctedCluster cl => if cl < 40 then s.countCorrected (8 + cl) else s
  | .correctedReg cl => if cl < 40 then s.countCorrected (48 + cl) else s
  | .l1Sector core k => s.l1SectorError core k
  | .fetchLine core k => s.fetchLineError core k
  | .fetchTag core set way line => s.fetchTagError core set way line
  | .hbm k hard => if isHbm k && s.present k then s.setGranuleErr k (if hard then 2 else 1) else s
  | .l2Sector k => s.l2SectorError k
  | .l1Tag core set way line => s.l1TagError core set way line
  | .l2Tag set way => s.l2TagError set way
  | .scratch bi q =>
    if s.holdsBlock bi && decide (4 * q < (s.block bi).scrBytes) then
      (s.updBlock bi fun b => { b with scrPoison := Sparse.set false b.scrPoison q true }).logCluster
        0x11 (clusterOf (s.block bi).core) (s.vmOf bi) (4 * q)
    else s
  | .accum bi q =>
    if s.holdsBlock bi && decide (4 * q < 4096 * (s.block bi).accUnits) then
      (s.updBlock bi fun b => { b with accPoison := Sparse.set false b.accPoison q true }).logCluster
        0x11 (clusterOf (s.block bi).core) (s.vmOf bi) (4 * q)
    else s
  | .register wi k =>
    let w := s.wave wi
    if decide (wi < s.waves.length) && s.holdsBlock w.block && w.life != .ended && regKeyOk w k then
      (s.setWave wi ((wholeRegister k).foldl Wave.setBad w)).logCluster
        0x12 (clusterOf (s.block w.block).core) (s.vmOf w.block) (w.part.val * 64 + w.wslot.val * 16)
    else s
  | .tensor bi n =>
    if s.holdsBlock bi && decide (n < 64) then
      (s.updBlock bi fun b => { b with tensPoison := Sparse.set false b.tensPoison n true }).logCluster
        0x12 (clusterOf (s.block bi).core) (s.vmOf bi) 0
    else s

/-- The soft errors at the beginning of a step: the first of them strikes when its time has come; none without power. -/
def State.strike (s : State) : State :=
  match s.soft.upsets with
  | [] => s
  | (0, u) :: t =>
    let s := { s with soft := { s.soft with upsets := t } }
    if s.off then s else s.struck u
  | (n + 1, u) :: t => { s with soft := { s.soft with upsets := (n, u) :: t } }

/-! ## REG_POISON of the small files (R193) -/

/-- Operands beside D, A and B that can be a flag, X or J register. -/
def thirdSources : Instr → List Operand
  | .iaddc _ _ _ _ _ _ c | .imad _ _ _ _ _ _ c | .imad64 _ _ _ _ _ c | .isel _ _ _ _ _ c | .idot4 _ _ _ _ _ _ c
  | .fshl _ _ _ _ _ c | .fshr _ _ _ _ _ c | .bfi _ _ _ _ _ c | .prmt _ _ _ _ _ c | .ffma _ _ _ _ _ _ c
  | .hfma2 _ _ _ _ _ _ c | .pack8 _ _ _ _ _ _ c | .vemit _ _ _ c | .qenq _ _ _ _ c | .taccst _ _ _ _ _ _ c
  | .tvmm _ _ _ _ _ c => [c]
  | .atomAdd _ _ _ _ _ _ x | .atomMin _ _ _ _ _ _ x | .atomMax _ _ _ _ _ _ x | .atomAnd _ _ _ _ _ _ x
  | .atomOr _ _ _ _ _ _ x | .atomXor _ _ _ _ _ _ x | .atomExch _ _ _ _ _ _ x | .atomFaddF32 _ _ _ _ _ _ x
  | .atomFaddB2 _ _ _ _ _ _ x | .redAdd _ _ _ _ _ x | .redMin _ _ _ _ _ x | .redMax _ _ _ _ _ x | .redAnd _ _ _ _ _ x
  | .redOr _ _ _ _ _ x | .redXor _ _ _ _ _ x | .redFaddF32 _ _ _ _ _ x | .redFaddB2 _ _ _ _ _ x => [x]
  | .atomCas _ _ _ _ _ _ cmp x => [cmp, x]
  | _ => []

/-- Whether the D field of an instruction is a source, or a tensor entry that it reads. -/
def readsD (i : Instr) (d : Operand) : Bool :=
  match i, d with
  | .st .., _ => true
  | .tdef .., _ => false
  | _, .t _ => true
  | _, .vx _ _ => true
  | _, _ => false

/-- Whether an instruction reads its A operand in its own lanes; an X register that the others read in a source lane is checked
there (R271). -/
def readsA (i : Instr) (a : Operand) : Bool :=
  match i, a with
  | .shfl .., .x _ | .rdlane .., .x _ | .quad .., .x _ | .ddx .., .x _ | .ddy .., .x _ => false
  | _, _ => true

/-- The operands whose F, X, J and T registers an instruction reads. -/
def smallReads (i : Instr) : List Operand :=
  let f := encodeFields i
  let d := (Operand.ofCode f.d).toList.filter (readsD i)
  d ++ (Operand.ofCode f.a).toList.filter (readsA i) ++ (Operand.ofCode f.b).toList ++ thirdSources i

/-- The lanes of `m` whose word of a per-lane register is poisoned. -/
def Wave.badLanes (w : Wave) (m : LaneMask) (key : Nat → Nat) : LaneMask := maskOf fun l => m.getLsbD l && w.poisoned (key l)

/-- The lanes that an operand's F, X, J or T register traps: a J register or an entry every active lane. -/
def smallPoison (w : Wave) (b : Block) (act : LaneMask) : Operand → Option LaneMask
  | .f n | .nf n => let m := w.badLanes act (flagKey n.val); if m = 0 then none else some m
  | .x n => let m := w.badLanes act (xKey n.val); if m = 0 then none else some m
  | .vx n _ => let m := w.badLanes act (xKey n.val); if m = 0 then none else some m
  | .j n => if w.poisoned (jKey n.val) then some act else none
  | .t n => if Sparse.get false b.tensPoison n.val then some act else none
  | _ => none

/-- The flag of a guard, read in every lane that its slot holds with counter 0. -/
def guardPoison (w : Wave) (isB : Bool) : Guard → Option LaneMask
  | .ifTrue n | .ifFalse n =>
    let m := w.badLanes (maskOf (w.laneOn isB)) (flagKey n.val)
    if m = 0 then none else some m
  | .always => none

/-- REG_POISON for an instruction of a slot through its guard and its F, X, J and T registers; none for a wave without poison. -/
def State.flagTrap (s : State) (wi : Nat) (isB : Bool) (i : Instr) : Option LaneMask :=
  let w := s.wave wi
  let b := s.block w.block
  if w.poison = [] && b.tensPoison = [] then none
  else
    let g := (Guard.ofCode (encodeFields i).g).getD .always
    match ((smallReads i).filterMap (smallPoison w b (w.active isB g))) ++ (guardPoison w isB g).toList with
    | [] => none
    | m :: t => some (t.foldl (fun a x => a ||| x) m)

end Sys2Proof.Machine
end

