-- ==== Sys2Proof/Machine/Select.lean ====
section
/-! DEFINITION. What the device can do next: which waves are ready (R200, R281, R388), which events can happen, and the
fetch and decode of an issuing wave (R222).  Among the things that can happen the next one is a free choice (DESIGN CHOICE, log entry 2). -/
namespace Sys2Proof.Machine

/-- Something the device can do: issue from a slot of a wave, or an event. -/
inductive Action where
  | issue (wave : Nat) (isB : Bool)
  | event (e : Instr)
  deriving DecidableEq, Repr

/-! ## What stops a wave -/

/-- The Ferry holds a split-stack access of the wave, which stops it (R202, R208). -/
def State.splitBusy (s : State) (wi : Nat) : Bool :=
  (s.core (s.block (s.wave wi).block).core).ferry.any fun j => match j with
    | .push v .. => v == wi
    | .pop v .. => v == wi
    | _ => false

/-- A wave that nothing stops but its slots (R208, R388). -/
def State.free (s : State) (wi : Nat) : Bool :=
  let w := s.wave wi
  let b := s.block w.block
  w.life == .running && b.life == .resident && !b.halted && w.stalls == [] && !w.fwait && !w.refilling
    && w.unwind.isNone && decide (w.hold ≤ s.clk) && !s.splitBusy wi && !(b.svc && s.handlerWaits (clusterOf b.core))

/-- Whether wave `i` is older than wave `j` of its partition (R388). -/
def Wave.older (w v : Wave) : Bool :=
  (!w.young && v.young) || (w.young == v.young && (decide (w.age < v.age) || (w.age == v.age && decide (w.wslot.val < v.wslot.val))))

/-! ## Issue -/

/-- The end of a step of an instruction: no wave is issuing. -/
def State.idle (s : State) : State := { s with cur := none }

/-- A trap that comes before REG_POISON (R397). -/
def beforePoison (t : Option TrapRec) : Bool :=
  match t with
  | some r => r.cause == Cause.illegalOperand || r.cause == Cause.regBound
  | none => false

/-- The lanes that a REG_POISON trap names. -/
def poisonMask (t : Option TrapRec) : LaneMask :=
  match t with
  | some r => if r.cause == Cause.regPoison then r.mask else 0
  | none => 0

/-- What an instruction has done, or REG_POISON where it read poison in an F, X, J or T register and nothing of a higher priority
trapped; the trap names the lanes that its other sources have poisoned too (R193, R397).  One that has not issued has read nothing. -/
def State.orFlagTrap (s : State) (wi : Nat) (isB : Bool) (iw : IWord) (m : Option LaneMask) (t : State) : State :=
  match m with
  | none => t
  | some m =>
    if t.stopped || beforePoison (t.wave wi).trap then t
    else s.takeTrapAt wi ⟨Cause.regPoison, isB, m ||| poisonMask (t.wave wi).trap, ((s.wave wi).path isB).pc, 0, iw⟩

/-- Fetch, decode and run the instruction of a slot (R222). -/
def State.fetchRun (s : State) (wi : Nat) (isB : Bool) : Out :=
  match s.fetch wi isB with
  | .stall s' => .next s'
  | .trap cause detail => .next (s.earlyTrap wi isB cause detail 0)
  | .word s' iw =>
    match decode iw with
    | .illegalInstruction => .next (s'.earlyTrap wi isB Cause.illegalInstruction 0 iw)
    | .illegalEncoding => .next (s'.earlyTrap wi isB Cause.illegalEncoding 0 iw)
    | .illegalOperand => .next (s'.earlyTrap wi isB Cause.illegalOperand 0 iw)
    | .ok i =>
      if (s'.block (s'.wave wi).block).svc && handlerForbids i then .next (s'.earlyTrap wi isB Cause.illegalInstruction 0 iw)
      else match exec i { s' with cur := some ⟨wi, isB, iw⟩ } with
      | .next t => .next (s'.orFlagTrap wi isB iw (s'.flagTrap wi isB i) (s'.markMoved t.idle wi (s'.wave wi).serial))
      | r => r

/-- Issue from a slot; a load that a pre-emption discarded is issued again first (R392). -/
def State.issueFrom (s : State) (wi : Nat) (isB : Bool) : Out :=
  match (s.wave wi).toReissue with
  | some e => s.reissue wi e.1 e.2
  | none => s.fetchRun wi isB

/-! ## Ready waves -/

/-- The instruction of a slot can issue now: its unit and its counter are available, and if it waits its condition has come true
(R281, R388). -/
def State.goes (s : State) (wi : Nat) (isB : Bool) : Bool :=
  match s.issueFrom wi isB with
  | .next t => !t.stopped
  | _ => true

/-- The slot R200 chooses among those that are eligible, one whose instruction waits being passed over (R424). -/
def State.pick (s : State) (wi : Nat) : Option Bool :=
  let w := s.wave wi
  let ok := fun b => w.eligible b && (!(w.slot b).waiting || s.goes wi b)
  let okA := ok false
  let okB := ok true
  if okA && okB then some w.slotA.last else if okA then some false else if okB then some true else none

/-- The ready waves of the device with the slots they issue from: where the slot that R200 chooses is not ready the other does not issue
in its place (R388, R424). -/
def State.ready (s : State) : List (Nat × Bool) :=
  (List.range s.waves.length).filterMap fun i =>
    if s.free i then
      let slot := match (s.wave i).toReissue with
        | some e => some e.2.slotB
        | none => s.pick i
      match slot with
      | some b => if s.goes i b then some (i, b) else none
      | none => none
    else none

/-- Whether two waves share a partition (R2); a service core is a partition of its own. -/
def State.samePart (s : State) (i j : Nat) : Bool :=
  let b := s.block (s.wave i).block
  let d := s.block (s.wave j).block
  b.core == d.core && b.svc == d.svc && (s.wave i).part == (s.wave j).part

/-- The oldest ready wave of each partition (R388). -/
def State.oldest (s : State) : List (Nat × Bool) :=
  let r := s.ready
  r.filter fun x => !r.any fun y => y.1 != x.1 && s.samePart x.1 y.1 && (s.wave y.1).older (s.wave x.1)

/-! ## Events of the device itself -/

/-- An event that has a next state. -/
def State.possible (s : State) (e : Instr) : Bool :=
  match exec e s with
  | .next _ => true
  | _ => false

/-- Everything the device can do next: nothing once a fatal error has stopped it (R413). -/
def State.actions (s : State) : List Action :=
  if s.fatal != 0 || s.off then []
  else (s.oldest.map fun x => .issue x.1 x.2) ++ (s.candidates.filter s.possible).map .event

/-- Do one thing. -/
def State.act (s : State) : Action → Out
  | .issue wi isB => s.issueFrom wi isB
  | .event e => exec e s

/-- A grid whose windows the caches may now keep as memory stands (R26; DESIGN CHOICE, log entry 49). -/
def Grid.keep (g : Grid) (kept : Bool) (mem : List Host.Cell) : Grid :=
  { g with held := if kept then g.held ++ [mem] else g.held }

/-- A calendar whose slot 0 has come is copied before anything else happens (R64). -/
def State.copyIfDue (s : State) : State := if s.copyDue then s.copyShadows else s

/-- The passing of time over a step (DESIGN CHOICE, log entry 3); what the dispatcher keeps of free cores and waiting gangs follows (R168, R170,
R385). -/
def State.tick (s : State) : State :=
  State.copyIfDue { s.afterFree.watchGangs with
    grids := s.grids.map fun g => g.keep (Config.windowKept s.choice) s.mem
    codeHeld := if Config.codeKept s.choice then s.codeHeld ++ [s.mem] else s.codeHeld
    stopped := false
    clk := s.clk + 1 + Config.extraClk s.choice, choice := s.choice + 1 }

end Sys2Proof.Machine
end

