-- ==== Sys2Proof/Machine/Step.lean ====
section
/-! DEFINITION. One step of the machine: the first stimulus from outside, if one stands in the list of inputs, else one
thing the device can do, chosen freely where several can happen (DESIGN CHOICE, log entry 2); then the clock advances. -/
namespace Sys2Proof.Machine

/-- The outcome after time has passed. -/
def ticked : Out → Out
  | .next s => .next s.tick
  | r => r

/-- A step after what strikes before it: without power nothing but a reset has an effect (R412) (R424: the device has no order among what can happen but the manual's). -/
def stepOf (s : State) : Out :=
  match s.inputs with
  | e :: rest =>
    if s.off && e != .deviceReset then .next { s with inputs := rest }.tick
    else ticked (exec e { s with inputs := rest })
  | [] =>
    match s.actions with
    | [] => .next s.tick
    | [a] => ticked (s.act a)
    | a :: b :: t => ticked (s.act ((a :: b :: t).getD (Config.choose s.choice % (t.length + 2)) a))

/-- One step: the soft error whose time has come (DESIGN CHOICE, log entry 41), then what the machine does. -/
def step (s : State) : Out := stepOf s.strike

/-- The address at which `withFetchWord` places an instruction. -/
def fetchBase : Nat := 0x100

/-- The state with one resident block of one wave whose next instruction is the given one (DESIGN CHOICE, log entry 8): the wave's PC
names the instruction's bytes in memory, and a translation of their page is cached. -/
def State.withFetchWord (s : State) (nbits w : Nat) : State :=
  let wi := s.waves.length
  let bi := s.blocks.length
  let gi := s.grids.length
  let code := writesFrom fetchBase (bytesOfWord (.ofNat 96 (w % 2 ^ nbits)))
  { s with
    mem := Sparse.setAll 0 s.mem code
    grids := s.grids ++ [{ vm := 0, asid := 0, placed := 1 }]
    blocks := s.blocks ++ [{ grid := gi, waves := [wi] }]
    waves := s.waves ++ [{ block := bi, slotA := { valid := true, path := { mask := 0xFFFFFFFF, pc := .ofNat 64 fetchBase } },
                           splitMax := 32, spillUnits := 8 }]
    x := { s.x with tlb := ⟨0, 0, 0, false, false, 0, 21, 0, false, false, false, false, true, true, true⟩ :: s.x.tlb } }

end Sys2Proof.Machine
end

