-- ==== Sys2Proof/Safety.lean ====
section
/-! DEFINITION. What a safe run is, in the terms claims use: storage and registers keep their canonical forms, and the
machine goes on. -/
namespace Sys2Proof

open Machine

/-- Memory is in its canonical form: addresses strictly rising, no byte listed that reads as an unlisted one. -/
abbrev Memory.wf (s : State) : Bool := Sparse.wf (0 : Byte) s.mem

/-- The machine takes a step. -/
def Goes (s : State) : Prop := ∃ t, step s = .next t

end Sys2Proof
end

