-- ==== Sys2Proof/Certificates/Slice0/Obligations.lean ====
section
/-! DEFINITION. The statements for the provers: what instructions and events do, what they leave unchanged, when they complete,
encodings, and the invariants of the machine.  `Claims` holds the words the statements share. -/

namespace Sys2Proof.Claims

open Sys2Proof.Machine

/-! ## What a step leaves unchanged -/

/-- Everything but one wave is as before: memory, other waves, blocks with their tags, tensor entries, scratchpads and
accumulators, grids, caches, queues and every register of the device. -/
def OnlyWave (s t : State) (wi : Nat) : Prop := t = { s with waves := s.waves.set wi (t.wave wi) }

/-- Of a wave, everything but its registers, flags, slots, issue marks and WSTATUS is as before. -/
def KeepsWave (w w' : Wave) : Prop :=
  w' = { w with regs := w'.regs, poison := w'.poison, xreg := w'.xreg, flag := w'.flag, slotA := w'.slotA, slotB := w'.slotB,
                young := w'.young, hold := w'.hold, deriv := w'.deriv, pwoob := w'.pwoob }

/-- Every byte of storage reads as before. -/
def SameBytes (s t : State) : Prop := ∀ a, a < windowTop → t.byte a = s.byte a

/-- The slot of the context goes on at the next instruction, its path otherwise as before; the other slot keeps its path. -/
def StepsOn (s t : State) (c : Ctx) : Prop :=
  (t.wave c.wi).path c.isB = { c.path with pc := c.pc + 12 } ∧ (t.wave c.wi).path (!c.isB) = c.w.path (!c.isB) ∧
    (t.wave c.wi).slotA.valid = c.w.slotA.valid ∧ (t.wave c.wi).slotB.valid = c.w.slotB.valid ∧ c.wi < s.waves.length

/-- The instruction has raised a trap of the context. -/
def Trapped (s t : State) (c : Ctx) : Prop := ∃ cause mask detail, t = s.takeTrap c cause mask detail

/-- The answer of a lane instruction: its result written to `d` in the active lanes, its slot moved on. -/
def laneDone (s : State) (c : Ctx) (d : Operand) (f : Nat → List Word) (a b : Option Operand) : Out :=
  .next (s.retire c (c.w.writeResult c.act d f) a b)

/-- The keys of the register words that a destination of `n` words covers in the active lanes, those of flags and X registers for
their poison among them; K is written once. -/
def destKeys (c : Ctx) (d : Operand) (n : Nat) : List Nat :=
  (if d.isK then [0] else lanesOf c.act).flatMap fun l =>
    match d with
    | .f k => [flagKey k.val l]
    | .x k => [xKey k.val l]
    | _ => (List.range n).filterMap fun j => c.w.opKey d l j

/-- The reuse registers O0 and O1 of the active lanes that the hints name (R177). -/
def reuseKeys (c : Ctx) : List Nat :=
  (lanesOf c.act).flatMap fun l => (if c.h.hint.reuseA then [oKey 0 l] else []) ++ (if c.h.hint.reuseB then [oKey 1 l] else [])

/-- A lane of O0 that a hint gives A, or of O1 that one gives B: A and B are the fields that the instruction reads (R177). -/
def copied (c : Ctx) (a b : Option Operand) (k : Nat) : Bool :=
  (c.h.hint.reuseA && a.isSome && decide (oKey 0 0 ≤ k) && decide (k < oKey 1 0)) ||
    (c.h.hint.reuseB && b.isSome && decide (oKey 1 0 ≤ k) && decide (k < oKey 2 0))

/-- The results that reach their registers: not those that a hint's copy overwrites (R177). -/
def kept (c : Ctx) (a b : Option Operand) (ws : List PendWrite) : List PendWrite := ws.filter fun p => !copied c a b p.key

/-- Of a wave, every register but the reuse registers is as before, and the poison of every register but the J file. -/
def SameRegs (c : Ctx) (w' : Wave) : Prop :=
  ∀ k, k ∉ reuseKeys c → w'.reg k = c.w.reg k ∧ (k < jKey 0 → w'.poisoned k = c.w.poisoned k)

/-- Of a wave, everything but the marks of an issue is as before: registers but for reuse, flags, counters, frames, split stack. -/
def SameWave (c : Ctx) (w' : Wave) : Prop :=
  w' = { c.w with regs := w'.regs, poison := w'.poison, slotA := w'.slotA, slotB := w'.slotB, young := w'.young, hold := w'.hold } ∧
    SameRegs c w'

/-- Flags, X and J registers, nesting counters, exited lanes, split stack, frames, window and WSTATUS.DERIV are as before. -/
def SameRest (w w' : Wave) : Prop :=
  w'.flag = w.flag ∧ w'.xreg = w.xreg ∧ w'.jreg = w.jreg ∧ w'.nest = w.nest ∧ w'.exited = w.exited ∧ w'.split = w.split ∧
    w'.frames = w.frames ∧ w'.wb = w.wb ∧ w'.deriv = w.deriv

/-- The instruction has done nothing but move on to the next one. -/
def JustAdvances (s t : State) (c : Ctx) : Prop := OnlyWave s t c.wi ∧ SameWave c (t.wave c.wi) ∧ StepsOn s t c

/-- The instruction waits (R281): its slot is marked and keeps its word and what it read; nothing else changes.  One that waits already
has not issued again, and nothing changes. -/
def Waits (s t : State) (c : Ctx) (read : Option DWord) : Prop :=
  (c.waiting = true → t = { s with stopped := true }) ∧
  (c.waiting = false → t = { s with
    waves := s.waves.set c.wi (c.w.setSlot c.isB { c.w.slot c.isB with waiting := true, word := c.iw, held := read }) })

end Sys2Proof.Claims

open Sys2Proof Sys2Proof.Machine Sys2Proof.Claims

/-! ## Words, steps, reset, storage -/

/-- Decoding is the inverse of encoding: every well-formed instruction, with every operand at every value its encoding admits,
is read back from its word (R214-R226). -/
def Obligations.EncodeDecodeRoundTrip : Prop :=
  ∀ i : Instr, i.wellFormed = true → i.isEvent = false → decode (encode i) = .ok i

/-- Each word has one meaning: a word that decodes is the word of the instruction it decodes to, which is well formed and no
event (R214, R222). -/
def Obligations.DecodedWordIsCanonical : Prop :=
  ∀ (w : IWord) (i : Instr), decode w = .ok i → i.wellFormed = true ∧ i.isEvent = false ∧ encode i = w

namespace Sys2Proof.Claims

/-- A word written from its fields in the order of R214: OP, G, D, A, B, IMM, MOD, HINT. -/
def wordOf (op : BitVec 12) (g : BitVec 4) (d a b : BitVec 10) (imm : BitVec 32) (mod : BitVec 10) (hint : BitVec 8) : IWord :=
  op ++ g ++ d ++ a ++ b ++ imm ++ mod ++ hint

/-- No guard, no hints. -/
def plainHdr : Hdr := ⟨.always, ⟨false, 0, false, false⟩⟩

end Sys2Proof.Claims

/-- Words written out field by field from the spec's encodings decode to their instructions, one of each group, and the words of
R222's table meet the fates it gives them. -/
def Obligations.SampleWords : Prop :=
  decode (wordOf 0x001 0 0 0 0 0 0 0) = .ok (.nop plainHdr) ∧
  decode (wordOf 0x100 0 0 0 0 0xFFFFFFFD 0 0) = .ok (.bra plainHdr 0xFFFFFFFD) ∧
  decode (wordOf 0x200 0 0 0 0 0x00FC1FC3 0 0) = .ok (.waitc plainHdr 3 63 1 63) ∧
  decode (wordOf 0x300 5 0x001 0x002 0x003 0 0x080 0xD8) =
    .ok (.iadd ⟨.ifFalse 0, ⟨true, 5, true, false⟩⟩ .i16x2 false (.v 1) (.v 2) (.v 3)) ∧
  decode (wordOf 0x410 2 0x07F 0x0D1 0x23F 0 0x040 0) = .ok (.and ⟨.ifTrue 1, ⟨false, 0, false, false⟩⟩ .n32 (.v 127) .laneid (.const 63)) ∧
  decode (wordOf 0x500 0 0x001 0x002 0x003 0 0x100 0) =
    .ok (.fadd plainHdr .f32 ⟨false, false, false, false, false, false⟩ (.v 1) (.v 2) (.v 3)) ∧
  decode (wordOf 0x500 0 0x081 0x082 0x221 0 0x100 0) =
    .ok (.fadd plainHdr .f32 ⟨false, false, false, false, false, false⟩ (.k 1) (.k 2) (.const 33)) ∧
  decode (wordOf 0x602 0 0x001 0x1C5 0x0CF 0x0C3 0x140 0) =
    .ok (.hfma2 plainHdr .h2 ⟨false, false, false, false, false, false⟩ (.v 1) (.vx 3 5) (.o 7) (.l 3)) ∧
  decode (wordOf 0x700 0 0x001 0x002 0 0 0x100 0) = .ok (.frcp plainHdr .f32 (.v 1) (.v 2)) ∧
  decode (wordOf 0x808 0 0x001 0x002 0x083 0 0x040 0) = .ok (.rdlane plainHdr .n32 (.v 1) (.v 2) (.k 3)) ∧
  decode (wordOf 0x900 0 0x001 0x002 0x0D0 0x10 0x008 0) = .ok (.ld plainHdr ⟨.i32, .plain, true, .wave⟩ (.v 1) (.v 2) .zero 0x10) ∧
  decode (wordOf 0xA20 0 0 0 0 0 0x013 0) = .ok (.fence plainHdr ⟨.i32, .acq, false, .device⟩) ∧
  decode (wordOf 0xC04 0 0 0 0 0 0 0) = .ok (.osctick plainHdr) ∧
  decode (wordOf 0xD01 0 0x088 0x245 0 0 0 0) = .ok (.tqry plainHdr (.k 8) (.t 5)) ∧
  decode (wordOf 0x50F 0 0 0 0 0 0 0) = .illegalInstruction ∧
  decode (wordOf 0x7FF 9 0x001 0x002 0x003 0 0x100 0) = .illegalInstruction ∧
  decode (wordOf 0x500 0 0x001 0x002 0x003 0 0x100 1) = .illegalEncoding ∧
  decode (wordOf 0x500 0 0x001 0x0C5 0x003 0 0x100 0) = .illegalEncoding ∧
  decode (wordOf 0x500 0 0x081 0x002 0x003 0 0x100 0) = .illegalOperand ∧
  decode (wordOf 0x310 0 0x0C0 0x002 0 0 0x040 0) = .illegalOperand ∧
  decode (wordOf 0x306 0 0x003 0x004 0x006 0 0x2C0 0) = .illegalOperand ∧
  decode (wordOf 0x900 0 0x001 0x002 0x0D0 0 0x01B 0) = .illegalEncoding ∧
  decode (wordOf 0x101 2 0 0x0E0 0 0 0 0) = .illegalEncoding ∧
  decode 0 = .illegalInstruction ∧ decode (~~~ (0 : IWord)) = .illegalInstruction

/-- Issuing from a slot whose next word has been fetched and decodes runs that instruction with that wave and slot issuing;
then no wave is issuing (R222).  A wave with a discarded load issues that first (R392); an instruction that reads a poisoned F, X, J or
tensor register takes REG_POISON unless a trap of a higher priority stopped it or it has not issued (R193, R397).  `u` is the state after
a soft error whose time has come, without one the state itself.  What the instruction has counted is marked where it moved data to or
from HBM, and nothing else is added.

That one thing happens per step is the model's choice (log 2). -/
def Obligations.StepRunsDecodedInstruction : Prop :=
  ∀ (s u s' t : State) (wi : Nat) (isB : Bool) (w : IWord) (i : Instr), s.strike = u → u.inputs = [] → u.actions = [.issue wi isB] →
    (u.wave wi).toReissue = none → u.fetch wi isB = .word s' w → decode w = .ok i →
    ((s'.block (s'.wave wi).block).svc && handlerForbids i) = false →
    exec i { s' with cur := some ⟨wi, isB, w⟩ } = .next t →
    (s.soft.upsets = [] → u = s) ∧
    (s'.flagTrap wi isB i = none → step s = .next (s'.markMoved { t with cur := none } wi (s'.wave wi).serial).tick) ∧
    (∀ v : State, t.l2.moves = s'.l2.moves → s'.markMoved v wi (s'.wave wi).serial = v ∨ v.l2.moves ≠ t.l2.moves) ∧
    (∀ m, s'.flagTrap wi isB i = some m → (t.wave wi).trap = none → t.stopped = false →
      step s = .next (s'.takeTrapAt wi ⟨0x07, isB, m, ((s'.wave wi).path isB).pc, 0, w⟩).tick)

/-- What stands in the list of inputs happens first: with power, a step is the meaning of the first input on the rest of the
list, after a soft error whose time has come, and the clock advances.

The clock never goes back over a tick, and a tick changes no storage, wave or operation, and of a grid only the
copies of memory kept for LDP (log 49).

The list of inputs, and that a step advances the clock, are the model's choice (log 2, log 3). -/
def Obligations.StepTakesInputFirst : Prop :=
  (∀ (s u t : State) (e : Instr) (rest : List Instr), s.strike = u → u.inputs = e :: rest → u.off = false →
    exec e { u with inputs := rest } = .next t → step s = .next t.tick) ∧
  (∀ s : State, s.clk < s.tick.clk ∧ s.tick.mem = s.mem ∧ s.tick.poison = s.poison ∧ s.tick.waves = s.waves ∧
    s.tick.grids = s.grids.map (fun g => g.keep (Config.windowKept s.choice) s.mem) ∧ s.tick.ops = s.ops)

/-- What reset leaves (R412): nothing resident and nothing queued, and the registers for which the manual gives a value. -/
def Obligations.ResetValues : Prop :=
  State.reset.waves = [] ∧ State.reset.blocks = [] ∧ State.reset.grids = [] ∧ State.reset.ops = [] ∧ State.reset.clk = 0 ∧
  State.reset.x.tlb = [] ∧ State.reset.x.faults = [] ∧ State.reset.l2.own = 0xFFAA5500 ∧ State.reset.lreg.en = false ∧
  State.reset.lreg.raytmo = 0x400 ∧ State.reset.lreg.flightmax = 4 ∧ State.reset.lreg.provwin = 2 ∧
  State.reset.lreg.qframes = 2 ∧ State.reset.tt.force = List.replicate 12 0xCB61CB61CB61CB61 ∧ State.reset.cmp.en = false ∧
  State.reset.fatal = 0 ∧ State.reset.actions = []

/-- Memory is in its canonical form after reset.

The list form of memory and that an unlisted byte reads 0 are the model's choice (log 1). -/
def Obligations.MemoryCanonicalAtReset : Prop := Memory.wf State.reset = true

/-- Memory keeps its canonical form, addresses strictly rising and no byte listed that reads as an unlisted one, over every
step from every state.

The list form of memory and that an unlisted byte reads 0 are the model's choice (log 1). -/
def Obligations.MemoryCanonicalKept : Prop :=
  ∀ s t : State, Memory.wf s = true → step s = .next t → Memory.wf t = true

/-- Without power nothing but a reset has an effect (R412): a device that is off stays off over a step, its storage and
retirements as they are, while no reset stands first in its inputs.

After a fatal error the device does nothing of its own until its next reset (R413): with no input and no soft error, only the
clock moves.

That a step with nothing to do still advances the clock is the model's choice (log 3). -/
def Obligations.StoppedDevice : Prop :=
  (∀ s t : State, s.off = true → s.inputs.head? ≠ some .deviceReset → step s = .next t →
    t.off = true ∧ t.mem = s.mem ∧ t.chRetired = s.chRetired ∧ t.clRetired = s.clRetired ∧ t.um = s.um) ∧
  (∀ s : State, s.fatal ≠ 0 → s.inputs = [] → s.soft.upsets = [] → step s = .next s.tick)

/-! ## Traps (R193, R207, R208, R395-R399) -/

/-- The register checks of an instruction (R175, R176, R193, R217, R397): a wide indexed operand that names a misaligned register in
an active lane is ILLEGAL_OPERAND; after that an operand outside the window is REG_BOUND, a poisoned source REG_POISON, and
otherwise there is no trap. -/
def Obligations.RegisterChecks : Prop :=
  ∀ (c : Ctx) (dst srcs : List (Operand × Nat)),
    (c.regCheck dst srcs = none ↔ c.w.indexOdd c.act (dst ++ srcs) = false ∧ c.w.regBound c.act (dst ++ srcs) = none ∧
      c.w.regPoison c.act srcs = none) ∧
    (∀ n q w l, (.vx n q, w) ∈ dst ++ srcs → l < 32 → c.act.getLsbD l = true → ((c.w.xOf n.val l).toNat + q.val) % w ≠ 0 →
      c.regCheck dst srcs = some (0x03, c.path.mask &&& c.w.launched, 0)) ∧
    (c.w.indexOdd c.act (dst ++ srcs) = false →
      (∀ m, c.w.regBound c.act (dst ++ srcs) = some m → c.regCheck dst srcs = some (0x06, m, 0)) ∧
      (∀ m, c.w.regBound c.act (dst ++ srcs) = none → c.w.regPoison c.act srcs = some m → c.regCheck dst srcs = some (0x07, m, 0))) ∧
    (∀ n w, (.v n, w) ∈ dst ++ srcs → c.w.win < n.val + w → c.w.regBound c.act (dst ++ srcs) = some c.act) ∧
    (∀ n q w l, (.vx n q, w) ∈ dst ++ srcs → l < 32 → c.act.getLsbD l = true → c.w.win < (c.w.xOf n.val l).toNat + q.val + w →
      c.regCheck dst srcs ≠ none)

namespace Sys2Proof.Claims

/-- A lane instruction: its header and its destinations with the registers each covers. -/
def laneDests : Instr → Option (Hdr × List (Operand × Nat))
  | .iadd h _ _ d _ _ | .isub h _ _ d _ _ | .imul h _ d _ _ | .imulh h _ d _ _ | .imad h _ _ d _ _ _ | .imin h _ d _ _
  | .imax h _ d _ _ | .iabs h _ _ d _ | .icmp h _ _ d _ _ | .isel h _ d _ _ _ | .idot4 h _ _ d _ _ _ => some (h, [(d, 1)])
  | .iaddc h _ _ d _ _ x => some (h, [(d, 1), (x, 1)])
  | .iadd64 h _ d _ _ | .imad64 h _ d _ _ _ => some (h, [(d, 2)])
  | .mov h ty d _ | .movi h ty d _ => some (h, [(d, if ty = .b64 then 2 else regsOfTy ty)])
  | .shl h _ d _ _ | .shr h _ d _ _ | .sar h _ d _ _ | .rotl h _ d _ _ | .fshl h _ d _ _ _ | .fshr h _ d _ _ _
  | .and h _ d _ _ | .or h _ d _ _ | .xor h _ d _ _ | .andn h _ d _ _ | .not h _ d _ | .bfx h _ d _ _ | .bfi h _ d _ _ _
  | .clz h _ d _ | .ctz h _ d _ | .popc h _ d _ | .brev h _ d _ | .bilv h _ d _ _ | .bdil h _ d _
  | .prmt h _ d _ _ _ => some (h, [(d, 1)])
  | .fadd h _ _ d _ _ | .fsub h _ _ d _ _ | .fmul h _ _ d _ _ | .ffma h _ _ d _ _ _ | .fmin h _ _ d _ _ | .fmax h _ _ d _ _
  | .fcmp h _ _ _ d _ _ | .frint h _ _ d _ | .hadd2 h _ _ d _ _ | .hmul2 h _ _ d _ _ | .hfma2 h _ _ d _ _ _
  | .hmin2 h _ _ d _ _ | .hmax2 h _ _ d _ _ => some (h, [(d, 1)])
  | .frcp h _ d _ | .frsq h _ d _ | .fsqrt h _ d _ | .fex2 h _ d _ | .flg2 h _ d _ | .fsin h _ d _ | .fcos h _ d _
  | .cvt h _ _ _ d _ | .pack8 h _ _ d _ _ _ | .unpk8 h _ _ d _ | .packd h _ d _ _ => some (h, [(d, 1)])
  | .shfl h ty _ d _ _ | .rdlane h ty d _ _ => some (h, [(d, regsOfTy ty)])
  | .vote h _ _ d _ | .matchI h _ d _ | .redw h _ _ d _ | .scanw h _ _ _ d _ | .ddx h _ d _ | .ddy h _ d _
  | .quad h _ _ _ d _ => some (h, [(d, 1)])
  | _ => none

/-- Writing a destination shifts the L file of its lanes (R178): V and O do, K, flags and X do not. -/
def shifts : Operand → Bool
  | .v _ | .vx _ _ | .o _ => true
  | _ => false

/-- The registers a lane instruction writes beside its destinations, in its active lanes: L0 to L3 where a destination shifts
them (R178), O0 and O1 where its hints copy A or B (R177). -/
def sideKeys (c : Ctx) (ds : List (Operand × Nat)) : List Nat :=
  (lanesOf c.act).flatMap fun l =>
    (if ds.any fun d => shifts d.1 then [lKey 0 l, lKey 1 l, lKey 2 l, lKey 3 l] else [])
      ++ (if c.h.hint.reuseA then [oKey 0 l] else []) ++ (if c.h.hint.reuseB then [oKey 1 l] else [])

end Sys2Proof.Claims

/-- The frame of the 82 lane instructions of groups 0x3 to 0x8: one that answers a next state has trapped, or has changed
nothing but its wave, and there only the destination registers, flag lanes or X registers of its active lanes, the L file its
result shifts, the reuse registers its hints name, WSTATUS.DERIV for a derivative, and its PC, which moves on by 12. -/
def Obligations.LaneInstructionFrame : Prop :=
  ∀ (s t : State) (i : Instr) (h : Hdr) (ds : List (Operand × Nat)) (c : Ctx), laneDests i = some (h, ds) → s.ctx h = some c →
    exec i s = .next t → Trapped s t c ∨
      (OnlyWave s t c.wi ∧ KeepsWave c.w (t.wave c.wi) ∧ StepsOn s t c ∧ SameBytes s t ∧
        (∀ k, (∀ d ∈ ds, k ∉ destKeys c d.1 d.2) → k ∉ sideKeys c ds →
          (t.wave c.wi).reg k = c.w.reg k ∧ (t.wave c.wi).poisoned k = c.w.poisoned k) ∧
        (∀ (n : Fin 4) (l : Nat), (c.act.getLsbD l = true → ∀ d ∈ ds, d.1 ≠ .f n) →
          (t.wave c.wi).flagOf n.val l = c.w.flagOf n.val l) ∧
        (∀ (n : Fin 4) (l : Nat), l < 32 → (c.act.getLsbD l = true → ∀ d ∈ ds, d.1 ≠ .x n) →
          (t.wave c.wi).xOf n.val l = c.w.xOf n.val l) ∧
        (t.wave c.wi).pwoob = c.w.pwoob ∧
        ((t.wave c.wi).deriv = c.w.deriv ∨ (∃ ty d a, i = .ddx h ty d a) ∨ (∃ ty d a, i = .ddy h ty d a)))

/-- Where a result lands (R174, R176, R178, R179): K receives it once; V receives each word in each active lane, at ring register
(WB + n) mod N, and its last words shift into L0; a flag receives bit 0 and an X register bits 7 to 0 in each active lane. -/
def Obligations.ResultLands : Prop :=
  ∀ (w : Wave) (act : LaneMask) (f : Nat → List Word),
    (∀ (n : Fin 64) (v : Word), f 0 = [v] → (w.writeResult act (.k n) f).reg (kKey n.val) = v) ∧
    (∀ (n : Fin 128) (l : Nat) (v : Word), l < 32 → act.getLsbD l = true → f l = [v] →
      (w.writeResult act (.v n) f).reg (ringKey ((w.wb + n.val) % w.ringN) l) = v ∧
      (w.writeResult act (.v n) f).reg (lKey 0 l) = v ∧
      (w.writeResult act (.v n) f).reg (lKey 1 l) = w.reg (lKey 0 l) ∧
      (w.writeResult act (.v n) f).reg (lKey 2 l) = w.reg (lKey 1 l) ∧
      (w.writeResult act (.v n) f).reg (lKey 3 l) = w.reg (lKey 2 l)) ∧
    (∀ (n : Fin 128) (l : Nat) (v u : Word), l < 32 → act.getLsbD l = true → f l = [v, u] →
      (w.writeResult act (.v n) f).reg (ringKey ((w.wb + n.val) % w.ringN) l) = v ∧
      (w.writeResult act (.v n) f).reg (ringKey ((w.wb + n.val + 1) % w.ringN) l) = u ∧
      (w.writeResult act (.v n) f).reg (lKey 0 l) = u ∧ (w.writeResult act (.v n) f).reg (lKey 1 l) = v) ∧
    (∀ (n : Fin 8) (l : Nat) (v : Word), l < 32 → act.getLsbD l = true → f l = [v] →
      (w.writeResult act (.o n) f).reg (oKey n.val l) = v) ∧
    (∀ (n : Fin 4) (l : Nat) (v : Word), l < 32 → act.getLsbD l = true → f l = [v] →
      (w.writeResult act (.f n) f).flagOf n.val l = v.getLsbD 0 ∧ (w.writeResult act (.x n) f).xOf n.val l = v.setWidth 8)

/-- Retiring (R177, R200, R216), what every result statement's next state goes through: from the wave that the effect left, O0 and
O1 receive in the active lanes the values read for A and B where the hints ask, and no other register changes; the slot goes on at
PC + 12 with LAST set and the other's clear; YIELD and STALL are noted; nothing but the wave changes.  The copy comes after the
instruction's own destination, so a result that is still to come does not reach O0 or O1 where a hint has written it.

That a hint's copy stands against the later result of a counted instruction is a reading (log 45). -/
def Obligations.RetiringInstructions : Prop :=
  ∀ (s : State) (c : Ctx) (w : Wave) (a b : Option Operand), c.wi < s.waves.length →
    let t := s.retire c w a b
    let v := t.wave c.wi
    OnlyWave s t c.wi ∧
    (∀ l < 32, c.act.getLsbD l = true →
      (∀ o, a = some o → c.h.hint.reuseA = true → v.reg (oKey 0 l) = c.w.read o l) ∧
      (∀ o, b = some o → c.h.hint.reuseB = true → v.reg (oKey 1 l) = c.w.read o l)) ∧
    (∀ k, ((c.h.hint.reuseA = true ∧ a ≠ none) → ∀ l < 32, c.act.getLsbD l = true → k ≠ oKey 0 l) →
      ((c.h.hint.reuseB = true ∧ b ≠ none) → ∀ l < 32, c.act.getLsbD l = true → k ≠ oKey 1 l) →
      v.reg k = w.reg k ∧ v.poisoned k = w.poisoned k) ∧
    v.path c.isB = { w.path c.isB with pc := (w.path c.isB).pc + 12 } ∧ v.path (!c.isB) = w.path (!c.isB) ∧
    (v.slot c.isB).last = true ∧ (v.slot (!c.isB)).last = false ∧ (v.slot c.isB).waiting = false ∧
    v.young = c.h.hint.yield ∧ v.hold = s.clk + 1 + c.h.hint.stall.val ∧
    (∀ j, j < c.w.counted.length → v.counted[j]? = w.counted[j]?) ∧
    (∀ j idx n, c.w.counted.length ≤ j → w.counted[j]? = some (idx, n) → ∃ n', v.counted[j]? = some (idx, n') ∧
      n'.ctr = n.ctr ∧ n'.lanes = n.lanes ∧ n'.writes = kept c a b n.writes) ∧
    (w.counted = c.w.counted → v.counted = w.counted) ∧
    KeepsWave { w with counted := v.counted } v ∧ v.flag = w.flag ∧ v.xreg = w.xreg ∧ v.deriv = w.deriv ∧ v.pwoob = w.pwoob

/-! ## Integer results (R251-R264) -/

namespace Sys2Proof.Claims

/-- Element `k` of a word under an element type: signed or unsigned, 32 bits, or the half `k` of 16 (R251). -/
def elemAt (ty : Ty) (k : Nat) (w : Word) : Int :=
  match ty with
  | .i16x2 => (w.extractLsb' (16 * k) 16).toInt
  | .n16x2 => (w.extractLsb' (16 * k) 16).toNat
  | .i32 => w.toInt
  | _ => w.toNat

/-- The range of an element type with `n` bits. -/
def elemMin (ty : Ty) (n : Nat) : Int := if ty = .i32 ∨ ty = .i16x2 ∨ ty = .i8 then -(2 ^ (n - 1)) else 0
def elemMax (ty : Ty) (n : Nat) : Int := if ty = .i32 ∨ ty = .i16x2 ∨ ty = .i8 then 2 ^ (n - 1) - 1 else 2 ^ n - 1

/-- An exact result as an element: reduced modulo 2^n, or clamped to the range of its type (R251). -/
def toElem (ty : Ty) (sat : Bool) (n : Nat) (x : Int) : BitVec n :=
  if !sat then .ofInt n x
  else if x < elemMin ty n then .ofInt n (elemMin ty n)
  else if elemMax ty n < x then .ofInt n (elemMax ty n)
  else .ofInt n x

/-- `r` holds `f` of the elements of some words, each computed exactly, then reduced or clamped. -/
def Elementwise (ty : Ty) (sat : Bool) (f : List Int → Int) (ws : List Word) (r : Word) : Prop :=
  if ty = .i16x2 ∨ ty = .n16x2 then
    r.extractLsb' 0 16 = toElem ty sat 16 (f (ws.map (elemAt ty 0))) ∧ r.extractLsb' 16 16 = toElem ty sat 16 (f (ws.map (elemAt ty 1)))
  else r = toElem ty sat 32 (f (ws.map (elemAt ty 0)))

/-- An instruction with result word `r` in each lane, as an equation with a property of the word. -/
def Gives (i : Instr) (s : State) (c : Ctx) (d : Operand) (a b : Option Operand) (p : Nat → Word → Prop) : Prop :=
  ∃ g : Nat → Word, exec i s = laneDone s c d (fun l => [g l]) a b ∧ ∀ l, p l (g l)

/-- A 32-bit operand as 64 bits. -/
def widen (signed : Bool) (x : Word) : DWord := if signed then x.signExtend 64 else x.setWidth 64

/-- The two words of a 64-bit result, low word first. -/
def pairOf (v : DWord) : List Word := [v.extractLsb' 0 32, v.extractLsb' 32 32]

/-- The outcome of an ICMP (R254). -/
def icmpHolds (ty : Ty) (k : Cmp) (x y : Word) : Bool :=
  let lt := if ty = .i32 then x.slt y else x.ult y
  match k with
  | .eq => x == y
  | .ne => x != y
  | .lt => lt
  | .le => lt || x == y
  | .gt => !(lt || x == y)
  | .ge => !lt
  | _ => false

/-- A word of ones or zeros (R254). -/
def allOnes (p : Bool) : Word := if p then 0xFFFFFFFF else 0

/-- The four byte products of IDOT4 with C (R256). -/
def dotSum (signed : Bool) (x y z : Word) : Int :=
  let b := fun (w : Word) (i : Nat) => if signed then (w.extractLsb' (8 * i) 8).toInt else ((w.extractLsb' (8 * i) 8).toNat : Int)
  (if signed then z.toInt else z.toNat) + b x 0 * b y 0 + b x 1 * b y 1 + b x 2 * b y 2 + b x 3 * b y 3

/-- The 33-bit sum of IADDC (R252). -/
def carrySum (sub : Bool) (x y : Word) (k : Bool) : BitVec 33 :=
  x.setWidth 33 + (if sub then ~~~ y else y).setWidth 33 + (if k then 1 else 0)

end Sys2Proof.Claims

/-- IADD, ISUB, IMUL, IMULH, IMAD, IMIN, IMAX and IABS of every element type (R251): with their register checks passed they
complete, each result element exact and then reduced, or clamped with `.sat`.

IADDC, IADD64, IMAD64, ICMP, ISEL and IDOT4 (R252-R256): with their register checks passed they complete with the carry,
64-bit, comparison, selection and dot-product results of their rules. -/
def Obligations.IntegerResults : Prop :=
  (∀ (s : State) (h : Hdr) (c : Ctx) (ty : Ty) (sat : Bool) (d a b x : Operand), s.ctx h = some c → ty.elem = true →
    (c.regCheck [(d, 1)] [(a, 1), (b, 1)] = none →
      Gives (.iadd h ty sat d a b) s c d (some a) (some b)
        (fun l => Elementwise ty sat (fun v => v.getD 0 0 + v.getD 1 0) [c.w.read a l, c.w.read b l]) ∧
      Gives (.isub h ty sat d a b) s c d (some a) (some b)
        (fun l => Elementwise ty sat (fun v => v.getD 0 0 - v.getD 1 0) [c.w.read a l, c.w.read b l]) ∧
      Gives (.imul h ty d a b) s c d (some a) (some b)
        (fun l => Elementwise ty false (fun v => v.getD 0 0 * v.getD 1 0) [c.w.read a l, c.w.read b l]) ∧
      Gives (.imin h ty d a b) s c d (some a) (some b)
        (fun l => Elementwise ty false (fun v => if v.getD 0 0 < v.getD 1 0 then v.getD 0 0 else v.getD 1 0) [c.w.read a l, c.w.read b l]) ∧
      Gives (.imax h ty d a b) s c d (some a) (some b)
        (fun l => Elementwise ty false (fun v => if v.getD 0 0 < v.getD 1 0 then v.getD 1 0 else v.getD 0 0) [c.w.read a l, c.w.read b l]) ∧
      (ty = .i32 ∨ ty = .n32 → Gives (.imulh h ty d a b) s c d (some a) (some b)
        (fun l r => r = (widen (ty == .i32) (c.w.read a l) * widen (ty == .i32) (c.w.read b l)).extractLsb' 32 32))) ∧
    (c.regCheck [(d, 1)] [(a, 1), (b, 1), (x, 1)] = none →
      Gives (.imad h ty sat d a b x) s c d (some a) (some b)
        (fun l => Elementwise ty sat (fun v => v.getD 0 0 * v.getD 1 0 + v.getD 2 0) [c.w.read a l, c.w.read b l, c.w.read x l])) ∧
    (c.regCheck [(d, 1)] [(a, 1)] = none →
      Gives (.iabs h ty sat d a) s c d (some a) none
        (fun l => Elementwise ty sat (fun v => if v.getD 0 0 < 0 then - v.getD 0 0 else v.getD 0 0) [c.w.read a l]))) ∧
  (∀ (s : State) (h : Hdr) (c : Ctx) (ty : Ty) (flag : Bool) (k : Cmp) (n : Fin 4) (d a b x : Operand), s.ctx h = some c →
    (c.regCheck [(d, 1)] [(a, 1), (b, 1)] = none →
      exec (.iaddc h ty flag d a b (.f n)) s =
        .next (s.retire c
          ((c.w.writeResult c.act d fun l => [(carrySum flag (c.w.read a l) (c.w.read b l) (c.w.flagOf n.val l)).setWidth 32]).writeResult
            c.act (.f n) fun l => [if (carrySum flag (c.w.read a l) (c.w.read b l) (c.w.flagOf n.val l)).getLsbD 32 then 1 else 0])
          (some a) (some b)) ∧
      (ty = .i32 ∨ ty = .n32 → exec (.icmp h ty k d a b) s =
        laneDone s c d (fun l => [allOnes (icmpHolds ty k (c.w.read a l) (c.w.read b l))]) (some a) (some b)) ∧
      exec (.isel h ty d a b x) s =
        laneDone s c d (fun l => [if c.w.cond x l then c.w.read a l else c.w.read b l]) (some a) (some b)) ∧
    (c.regCheck [(d, 2)] [(a, 2), (b, 2)] = none →
      exec (.iadd64 h ty d a b) s = laneDone s c d (fun l => pairOf (c.w.read64 a l + c.w.read64 b l)) (some a) (some b)) ∧
    (c.regCheck [(d, 2)] [(a, 1), (b, 1), (x, 2)] = none → ty = .i32 ∨ ty = .n32 →
      exec (.imad64 h ty d a b x) s = laneDone s c d
        (fun l => pairOf (widen (ty == .i32) (c.w.read a l) * widen (ty == .i32) (c.w.read b l) + c.w.read64 x l)) (some a) (some b)) ∧
    (c.regCheck [(d, 1)] [(a, 1), (b, 1), (x, 1)] = none → ty = .i8 ∨ ty = .n8 →
      exec (.idot4 h ty flag d a b x) s = laneDone s c d
        (fun l => [toElem ty flag 32 (dotSum (ty == .i8) (c.w.read a l) (c.w.read b l) (c.w.read x l))]) (some a) (some b)))

namespace Sys2Proof.Claims

/-- Bit `i` of A extended without bound, with copies of bit 31 or with zeros (R261). -/
def bitBeyond (signed : Bool) (x : Word) (i : Nat) : Bool := if i < 32 then x.getLsbD i else signed && x.msb

/-- pos and len of a bit-field operand (R261). -/
def fieldPos (y : Word) : Nat := (y.extractLsb' 0 8).toNat
def fieldLen (y : Word) : Nat := min (y.extractLsb' 8 8).toNat 32

/-- Bit `i` of BFX. -/
def bfxBit (signed : Bool) (x y : Word) (i : Nat) : Bool :=
  if fieldLen y = 0 then false
  else if i < fieldLen y then bitBeyond signed x (fieldPos y + i)
  else signed && bitBeyond signed x (fieldPos y + fieldLen y - 1)

/-- Bit `i` of BFI. -/
def bfiBit (x y z : Word) (i : Nat) : Bool :=
  if fieldPos y ≤ i ∧ i < fieldPos y + fieldLen y then x.getLsbD (i - fieldPos y) else z.getLsbD i

/-- Output byte `i` of PRMT, as a number (R264). -/
def prmtByte (x y z : Word) (i : Nat) : Nat :=
  let n := (z.extractLsb' (4 * i) 4).toNat
  let src := ((y ++ x).extractLsb' (8 * (n % 8)) 8).toNat
  if n < 8 then src else if src < 128 then 0 else 255

end Sys2Proof.Claims

/-- MOV, MOVI, the shifts and the logic instructions (R257-R260): with their register checks passed they complete, the moved
words, shifted words and bitwise results in the active lanes.

The bit-field, counting and permuting instructions (R261-R264), bit by bit: with their register checks passed they
complete. -/
def Obligations.MoveShiftBitResults : Prop :=
  (∀ (s : State) (h : Hdr) (c : Ctx) (ty : Ty) (imm : Word) (d a b x : Operand), s.ctx h = some c →
    (ty.word = true → c.regCheck [(d, 1)] [(a, 1)] = none → exec (.mov h ty d a) s = laneDone s c d
      (fun l => [if d.isFlag then (if c.w.read a l = 0 then 0 else 1) else c.w.read a l]) (some a) none) ∧
    (c.regCheck [(d, 2)] [(a, 2)] = none → d.isFlag = false → exec (.mov h .b64 d a) s =
      laneDone s c d (fun l => [c.w.readAt a l 0, c.w.readAt a l 1]) (some a) none) ∧
    (c.regCheck [(d, 4)] [(a, 4)] = none → d.isFlag = false → exec (.mov h .b128 d a) s =
      laneDone s c d (fun l => [c.w.readAt a l 0, c.w.readAt a l 1, c.w.readAt a l 2, c.w.readAt a l 3]) (some a) none) ∧
    (ty.word = true → c.regCheck [(d, 1)] [] = none → exec (.movi h ty d imm) s = laneDone s c d (fun _ => [imm]) none none) ∧
    (c.regCheck [(d, 2)] [] = none →
      exec (.movi h .b64 d imm) s = laneDone s c d (fun _ => pairOf (imm.signExtend 64)) none none) ∧
    (c.regCheck [(d, 1)] [(a, 1), (b, 1)] = none →
      exec (.shl h ty d a b) s = laneDone s c d (fun l => [c.w.read a l <<< (c.w.read b l).toNat]) (some a) (some b) ∧
      exec (.shr h ty d a b) s = laneDone s c d (fun l => [c.w.read a l >>> (c.w.read b l).toNat]) (some a) (some b) ∧
      exec (.sar h ty d a b) s = laneDone s c d (fun l => [(c.w.read a l).sshiftRight (c.w.read b l).toNat]) (some a) (some b) ∧
      exec (.rotl h ty d a b) s = laneDone s c d
        (fun l => [((c.w.read a l ++ c.w.read a l) <<< ((c.w.read b l).toNat % 32)).extractLsb' 32 32]) (some a) (some b) ∧
      exec (.and h ty d a b) s = laneDone s c d (fun l => [c.w.read a l &&& c.w.read b l]) (some a) (some b) ∧
      exec (.or h ty d a b) s = laneDone s c d (fun l => [c.w.read a l ||| c.w.read b l]) (some a) (some b) ∧
      exec (.xor h ty d a b) s = laneDone s c d (fun l => [c.w.read a l ^^^ c.w.read b l]) (some a) (some b) ∧
      exec (.andn h ty d a b) s = laneDone s c d (fun l => [c.w.read a l &&& ~~~ c.w.read b l]) (some a) (some b)) ∧
    (c.regCheck [(d, 1)] [(a, 1), (b, 1), (x, 1)] = none →
      exec (.fshl h ty d a b x) s = laneDone s c d
        (fun l => [((c.w.read a l ++ c.w.read b l) <<< ((c.w.read x l).toNat % 32)).extractLsb' 32 32]) (some a) (some b) ∧
      exec (.fshr h ty d a b x) s = laneDone s c d
        (fun l => [((c.w.read a l ++ c.w.read b l) >>> ((c.w.read x l).toNat % 32)).extractLsb' 0 32]) (some a) (some b)) ∧
    (c.regCheck [(d, 1)] [(a, 1)] = none →
      exec (.not h ty d a) s = laneDone s c d (fun l => [~~~ c.w.read a l]) (some a) none)) ∧
  (∀ (s : State) (h : Hdr) (c : Ctx) (ty : Ty) (d a b x : Operand), s.ctx h = some c → ty = .i32 ∨ ty = .n32 →
    (c.regCheck [(d, 1)] [(a, 1), (b, 1)] = none →
      Gives (.bfx h ty d a b) s c d (some a) (some b)
        (fun l r => ∀ i < 32, r.getLsbD i = bfxBit (ty == .i32) (c.w.read a l) (c.w.read b l) i) ∧
      Gives (.bilv h ty d a b) s c d (some a) (some b)
        (fun l r => ∀ i < 16, r.getLsbD (2 * i) = (c.w.read a l).getLsbD i ∧ r.getLsbD (2 * i + 1) = (c.w.read b l).getLsbD i)) ∧
    (c.regCheck [(d, 1)] [(a, 1), (b, 1), (x, 1)] = none →
      Gives (.bfi h ty d a b x) s c d (some a) (some b)
        (fun l r => ∀ i < 32, r.getLsbD i = bfiBit (c.w.read a l) (c.w.read b l) (c.w.read x l) i) ∧
      Gives (.prmt h ty d a b x) s c d (some a) (some b)
        (fun l r => ∀ i < 4, (r.extractLsb' (8 * i) 8).toNat = prmtByte (c.w.read a l) (c.w.read b l) (c.w.read x l) i)) ∧
    (c.regCheck [(d, 1)] [(a, 1)] = none →
      Gives (.clz h ty d a) s c d (some a) none
        (fun l r => r.toNat ≤ 32 ∧ (∀ i < r.toNat, (c.w.read a l).getLsbD (31 - i) = false) ∧
          (r.toNat < 32 → (c.w.read a l).getLsbD (31 - r.toNat) = true)) ∧
      Gives (.ctz h ty d a) s c d (some a) none
        (fun l r => r.toNat ≤ 32 ∧ (∀ i < r.toNat, (c.w.read a l).getLsbD i = false) ∧
          (r.toNat < 32 → (c.w.read a l).getLsbD r.toNat = true)) ∧
      Gives (.popc h ty d a) s c d (some a) none
        (fun l r => r.toNat = ((List.range 32).filter fun i => (c.w.read a l).getLsbD i).length) ∧
      Gives (.brev h ty d a) s c d (some a) none (fun l r => ∀ i < 32, r.getLsbD i = (c.w.read a l).getLsbD (31 - i)) ∧
      Gives (.bdil h ty d a) s c d (some a) none
        (fun l r => ∀ i < 16, r.getLsbD i = (c.w.read a l).getLsbD (2 * i) ∧ r.getLsbD (16 + i) = (c.w.read a l).getLsbD (2 * i + 1))))

/-! ## Floating point and conversions (R265-R270) -/

namespace Sys2Proof.Claims

/-- A pattern of a format of `n` bits with its sign cleared, then flipped, where the modifiers ask (R265, R267). -/
def modified {n : Nat} (absOn negOn : Bool) (x : BitVec n) : BitVec n :=
  let y := if absOn then x &&& ~~~ (BitVec.twoPow n (n - 1)) else x
  if negOn then y ^^^ BitVec.twoPow n (n - 1) else y

/-- `.sat`: to +0 for a NaN and for a negative result, to 1.0 for one above 1.0 (R265). -/
def saturated {n : Nat} (f : Fmt) (one : BitVec n) (on : Bool) (r : BitVec n) : BitVec n :=
  if !on then r
  else if f.dec r.toNat = .nan ∨ r.msb = true then 0
  else if one.toNat < r.toNat then one
  else r

/-- A two- or three-operand operation of a format: the operands modified, the exact result rounded once, then `.sat`. -/
def formatOp {n : Nat} (f : Fmt) (one : BitVec n) (m : FMod) (g : FNum → FNum → FNum → FNum) (x y z : BitVec n) : BitVec n :=
  saturated f one m.sat (.ofNat n (f.enc (g (f.dec (modified m.absa m.nega x).toNat) (f.dec (modified m.absb m.negb y).toNat)
    (f.dec (modified false m.negc z).toNat))))

/-- FMIN and FMAX (R239, R265): the operand that is no NaN, the canonical NaN for two; -0 below +0. -/
def formatPick {n : Nat} (f : Fmt) (one : BitVec n) (m : FMod) (greater : Bool) (x y : BitVec n) : BitVec n :=
  let x := modified m.absa m.nega x
  let y := modified m.absb m.negb y
  let xn := decide (f.dec x.toNat = .nan)
  let yn := decide (f.dec y.toNat = .nan)
  let r : BitVec n :=
    if xn && yn then .ofNat n f.canon
    else if xn then y
    else if yn then x
    else if (f.dec x.toNat).below (f.dec y.toNat) then (if greater then y else x)
    else if greater then x else y
  saturated f one m.sat r

def fone : Word := 0x3F800000

/-- FP32 operations: the sum, difference, product and fused product of exact numbers. -/
def fpAdd (x y _ : FNum) : FNum := x.add y
def fpSub (x y _ : FNum) : FNum := x.add y.neg
def fpMul (x y _ : FNum) : FNum := x.mul y
def fpFma (x y z : FNum) : FNum := (x.mul y).add z

/-- FCMP (R254). -/
def fcmpHolds (unord : Bool) (k : Cmp) (x y : Word) : Bool :=
  let p := fp32.dec x.toNat
  let q := fp32.dec y.toNat
  let isNan := decide (p = .nan) || decide (q = .nan)
  match k with
  | .num => !isNan
  | .nan => isNan
  | .eq => if isNan then unord else (p.cmp q).2
  | .ne => if isNan then unord else !(p.cmp q).2
  | .lt => if isNan then unord else (p.cmp q).1
  | .le => if isNan then unord else (p.cmp q).1 || (p.cmp q).2
  | .gt => if isNan then unord else !((p.cmp q).1 || (p.cmp q).2)
  | .ge => if isNan then unord else !(p.cmp q).1

/-- Half `k` of a packed word. -/
def halfAt (k : Nat) (x : Word) : BitVec 16 := x.extractLsb' (16 * k) 16

/-- The half format of `.h2` and `.b2`, and its 1.0. -/
def packedFmt (ty : Ty) : Fmt := if ty = .b2 then bf16 else fp16
def packedOne (ty : Ty) : BitVec 16 := if ty = .b2 then 0x3F80 else 0x3C00

/-- Both halves of a packed result, each from the halves of its operands. -/
def Halves (g : BitVec 16 → BitVec 16 → BitVec 16 → BitVec 16) (x y z r : Word) : Prop :=
  halfAt 0 r = g (halfAt 0 x) (halfAt 0 y) (halfAt 0 z) ∧ halfAt 1 r = g (halfAt 1 x) (halfAt 1 y) (halfAt 1 z)

end Sys2Proof.Claims

/-- FADD, FSUB, FMUL, FFMA, FMIN, FMAX, FCMP and FRINT (R254, R265, R266): with their register checks passed they complete,
each result the exact one of the modified operands rounded once.

HADD2, HMUL2, HFMA2, HMIN2 and HMAX2 of both half formats (R267): with their register checks passed they complete, each
half an operation of its own. -/
def Obligations.FloatResults : Prop :=
  (∀ (s : State) (h : Hdr) (c : Ctx) (m : FMod) (u : Bool) (k : Cmp) (dir : RoundDir) (d a b x : Operand), s.ctx h = some c →
    (c.regCheck [(d, 1)] [(a, 1), (b, 1)] = none →
      exec (.fadd h .f32 m d a b) s = laneDone s c d
        (fun l => [formatOp fp32 fone m fpAdd (c.w.read a l) (c.w.read b l) 0]) (some a) (some b) ∧
      exec (.fsub h .f32 m d a b) s = laneDone s c d
        (fun l => [formatOp fp32 fone m fpSub (c.w.read a l) (c.w.read b l) 0]) (some a) (some b) ∧
      exec (.fmul h .f32 m d a b) s = laneDone s c d
        (fun l => [formatOp fp32 fone m fpMul (c.w.read a l) (c.w.read b l) 0]) (some a) (some b) ∧
      exec (.fmin h .f32 m d a b) s = laneDone s c d
        (fun l => [formatPick fp32 fone m false (c.w.read a l) (c.w.read b l)]) (some a) (some b) ∧
      exec (.fmax h .f32 m d a b) s = laneDone s c d
        (fun l => [formatPick fp32 fone m true (c.w.read a l) (c.w.read b l)]) (some a) (some b) ∧
      exec (.fcmp h .f32 u k d a b) s = laneDone s c d
        (fun l => [allOnes (fcmpHolds u k (c.w.read a l) (c.w.read b l))]) (some a) (some b)) ∧
    (c.regCheck [(d, 1)] [(a, 1), (b, 1), (x, 1)] = none →
      exec (.ffma h .f32 m d a b x) s = laneDone s c d
        (fun l => [formatOp fp32 fone m fpFma (c.w.read a l) (c.w.read b l) (c.w.read x l)]) (some a) (some b)) ∧
    (c.regCheck [(d, 1)] [(a, 1)] = none →
      exec (.frint h .f32 dir d a) s = laneDone s c d (fun l => [frintVal dir (c.w.read a l)]) (some a) none)) ∧
  (∀ (s : State) (h : Hdr) (c : Ctx) (ty : Ty) (m : FMod) (d a b x : Operand), s.ctx h = some c → ty = .h2 ∨ ty = .b2 →
    (c.regCheck [(d, 1)] [(a, 1), (b, 1)] = none →
      Gives (.hadd2 h ty m d a b) s c d (some a) (some b)
        (fun l => Halves (formatOp (packedFmt ty) (packedOne ty) m fpAdd) (c.w.read a l) (c.w.read b l) 0) ∧
      Gives (.hmul2 h ty m d a b) s c d (some a) (some b)
        (fun l => Halves (formatOp (packedFmt ty) (packedOne ty) m fpMul) (c.w.read a l) (c.w.read b l) 0) ∧
      Gives (.hmin2 h ty m d a b) s c d (some a) (some b)
        (fun l => Halves (fun p q _ => formatPick (packedFmt ty) (packedOne ty) m false p q) (c.w.read a l) (c.w.read b l) 0) ∧
      Gives (.hmax2 h ty m d a b) s c d (some a) (some b)
        (fun l => Halves (fun p q _ => formatPick (packedFmt ty) (packedOne ty) m true p q) (c.w.read a l) (c.w.read b l) 0)) ∧
    (c.regCheck [(d, 1)] [(a, 1), (b, 1), (x, 1)] = none →
      Gives (.hfma2 h ty m d a b x) s c d (some a) (some b)
        (fun l => Halves (formatOp (packedFmt ty) (packedOne ty) m fpFma) (c.w.read a l) (c.w.read b l) (c.w.read x l))))

/-- FRCP, FRSQ, FSQRT, FEX2, FLG2, FSIN and FCOS (R268, R240): with their register checks passed they complete with a result
that depends on the input bits alone, and with the special values of R240.

CVT, PACK8, UNPK8 and PACKD (R269, R270): with their register checks passed they complete; PACK8 keeps the other bytes of
C, and PACKD joins two narrowed halves.

Results that R240 bounds are free values within the bound (log 11). -/
def Obligations.FunctionAndConversionResults : Prop :=
  ((∀ (s : State) (h : Hdr) (c : Ctx) (d a : Operand), s.ctx h = some c → c.regCheck [(d, 1)] [(a, 1)] = none →
    exec (.frcp h .f32 d a) s = laneDone s c d (fun l => [frcpVal (c.w.read a l)]) (some a) none ∧
    exec (.frsq h .f32 d a) s = laneDone s c d (fun l => [frsqVal (c.w.read a l)]) (some a) none ∧
    exec (.fsqrt h .f32 d a) s = laneDone s c d (fun l => [fsqrtVal (c.w.read a l)]) (some a) none ∧
    exec (.fex2 h .f32 d a) s = laneDone s c d (fun l => [fex2Val (c.w.read a l)]) (some a) none ∧
    exec (.flg2 h .f32 d a) s = laneDone s c d (fun l => [flg2Val (c.w.read a l)]) (some a) none ∧
    exec (.fsin h .f32 d a) s = laneDone s c d (fun l => [trigVal false Config.fsin (c.w.read a l)]) (some a) none ∧
    exec (.fcos h .f32 d a) s = laneDone s c d (fun l => [trigVal true Config.fcos (c.w.read a l)]) (some a) none) ∧
  (frcpVal 0 = 0x7F800000 ∧ frcpVal 0x80000000 = 0xFF800000 ∧ frcpVal 0x7F800000 = 0 ∧ frcpVal 0xFF800000 = 0x80000000) ∧
  (frsqVal 0 = 0x7F800000 ∧ frsqVal 0x80000000 = 0xFF800000 ∧ frsqVal 0x7F800000 = 0) ∧
  (fsqrtVal 0x80000000 = 0x80000000 ∧ fsqrtVal 0x7F800000 = 0x7F800000) ∧
  (fex2Val 0xFF800000 = 0 ∧ fex2Val 0x7F800000 = 0x7F800000) ∧
  (flg2Val 0 = 0xFF800000 ∧ flg2Val 0x80000000 = 0xFF800000 ∧ flg2Val 0x7F800000 = 0x7F800000 ∧ flg2Val 0x3F800000 = 0) ∧
  (∀ x : Word, x = 0x7F800000 ∨ x = 0xFF800000 →
    trigVal false Config.fsin x = 0x7FC00000 ∧ trigVal true Config.fcos x = 0x7FC00000) ∧
  (trigVal false Config.fsin 0 = 0 ∧ trigVal false Config.fsin 0x80000000 = 0x80000000) ∧
  (∀ x : Word, 0x80000000 < x.toNat → x.toNat ≤ 0xFF800000 →
    frsqVal x = 0x7FC00000 ∧ fsqrtVal x = 0x7FC00000 ∧ flg2Val x = 0x7FC00000) ∧
  (∀ x : Word, fp32.dec x.toNat = .nan → frcpVal x = 0x7FC00000 ∧ frsqVal x = 0x7FC00000 ∧ fsqrtVal x = 0x7FC00000 ∧
    fex2Val x = 0x7FC00000 ∧ flg2Val x = 0x7FC00000 ∧ trigVal false Config.fsin x = 0x7FC00000 ∧
    trigVal true Config.fcos x = 0x7FC00000)) ∧
  (∀ (s : State) (h : Hdr) (c : Ctx) (ty src : Ty) (hi : Bool) (sel : BitVec 2) (d a b x : Operand), s.ctx h = some c →
    (c.regCheck [(d, 1)] [(a, 1)] = none →
      exec (.cvt h ty src hi d a) s = laneDone s c d (fun l => [cvtVal ty src hi (c.w.read a l)]) (some a) none ∧
      (ty.byteFmt = true → exec (.unpk8 h ty sel d a) s = laneDone s c d
        (fun l => [regOf (wideTy ty) (patOf (wideTy ty) (numOf ty ((c.w.read a l).extractLsb' (8 * sel.toNat) 8).toNat))]) (some a) none)) ∧
    (c.regCheck [(d, 1)] [(a, 1), (b, 1), (x, 1)] = none → ty.byteFmt = true →
      Gives (.pack8 h ty hi d a b x) s c d (some a) (some b) (fun l r =>
        r.extractLsb' (if hi then 16 else 0) 16 = BitVec.ofNat 8 (patOf ty (numOf (wideTy ty) (c.w.read b l).toNat))
          ++ BitVec.ofNat 8 (patOf ty (numOf (wideTy ty) (c.w.read a l).toNat)) ∧
        r.extractLsb' (if hi then 0 else 16) 16 = (c.w.read x l).extractLsb' (if hi then 0 else 16) 16)) ∧
    (c.regCheck [(d, 1)] [(a, 1), (b, 1)] = none → ty.packedSrc = true →
      exec (.packd h ty d a b) s = laneDone s c d
        (fun l => [BitVec.ofNat 16 (patOf ty (numOf (wideTy ty) (c.w.read b l).toNat))
          ++ BitVec.ofNat 16 (patOf ty (numOf (wideTy ty) (c.w.read a l).toNat))]) (some a) (some b)))

/-! ## Lane exchange and collectives (R271-R279) -/

namespace Sys2Proof.Claims

/-- The lane SHFL names, before the check that it is there (R272); none where it lies outside 0 to 31. -/
def shflLane (mode : ShflMode) (k : Word) (l : Nat) : Option Nat :=
  match mode with
  | .idx => some (k.extractLsb' 0 5).toNat
  | .up => if k.toNat ≤ l then some (l - k.toNat) else none
  | .down => if l + k.toNat ≤ 31 then some (l + k.toNat) else none
  | .xor => some (l ^^^ (k.extractLsb' 0 5).toNat)

/-- The source lane of SHFL: the reading lane where the named one is out of range or was never launched. -/
def shflFrom (c : Ctx) (mode : ShflMode) (b : Operand) (l : Nat) : Nat :=
  match shflLane mode (c.w.read b l) l with
  | some p => if c.w.launched.getLsbD p then p else l
  | none => l

/-- The source lane of QUAD (R279). -/
def quadFrom (mode : QuadMode) (n : BitVec 2) (l : Nat) : Nat :=
  match mode with
  | .bcast => 4 * (l / 4) + n.toNat
  | .swapx => l ^^^ 1
  | .swapy => l ^^^ 2
  | .swapd => l ^^^ 3

/-- The answer of an instruction that reads A in a source lane: as `laneDone`, but its reuse hint for A copies the value read, the
source lane's (R177, R271); `rd` gives the lane whose X register resolves an indexed A. -/
def crossDone (s : State) (c : Ctx) (d : Operand) (n : Nat) (a : Operand) (src : Nat → Nat) (b : Option Operand)
    (rd : Nat → Nat := fun l => l) : Out :=
  let w := c.w.writeResult c.act d fun l => (List.range n).map fun j => c.w.cross a (rd l) (src l) j
  .next (s.retire c (if c.h.hint.reuseA then (lanesOf c.act).foldl (fun v l => v.setReg (oKey 0 l) (c.w.cross a l (src l) 0)) w else w)
    none b)

/-- The partner of a derivative counts: the wave is not sailed and the lane was launched (R278). -/
def partnerThere (c : Ctx) (p : Nat) : Bool := !c.w.spawned && c.w.launched.getLsbD p

/-- The value of DDX and DDY in a lane (R278): the higher lane of the pair minus the lower. -/
def pairDifference (c : Ctx) (a : Operand) (bit l : Nat) : Word :=
  let p := l ^^^ bit
  if !partnerThere c p then 0
  else if l / bit % 2 = 0 then formatOp fp32 fone ⟨false, false, false, false, false, false⟩ fpSub (c.w.cross a l p 0) (c.w.read a l) 0
  else formatOp fp32 fone ⟨false, false, false, false, false, false⟩ fpSub (c.w.read a l) (c.w.cross a l p 0) 0

/-- The wave after a derivative: its result, and WSTATUS.DERIV where a partner was missing. -/
def derivWave (c : Ctx) (d a : Operand) (bit : Nat) : Wave :=
  { c.w.writeResult c.act d (fun l => [pairDifference c a bit l]) with
    deriv := c.w.deriv || (lanesOf c.act).any fun l => !partnerThere c (l ^^^ bit) }

/-- The operation of REDW and SCANW on two words of an integer type, and its identity (R276). -/
def foldOp (ty : Ty) (op : RedOp) (x y : Word) : Word :=
  match op with
  | .add => x + y
  | .min => if ty = .i32 then (if x.toInt ≤ y.toInt then x else y) else if x.toNat ≤ y.toNat then x else y
  | .max => if ty = .i32 then (if x.toInt ≤ y.toInt then y else x) else if x.toNat ≤ y.toNat then y else x
  | .and => x &&& y
  | .or => x ||| y
  | .xor => x ^^^ y
def foldUnit (ty : Ty) (op : RedOp) : Word :=
  match op with
  | .min => if ty = .i32 then 0x7FFFFFFF else 0xFFFFFFFF
  | .max => if ty = .i32 then 0x80000000 else 0
  | .and => 0xFFFFFFFF
  | _ => 0

/-- The combination of the active lanes for which `p` holds, in ascending order. -/
def foldLanes (c : Ctx) (ty : Ty) (op : RedOp) (a : Operand) (p : Nat → Bool) : Word :=
  (((lanesOf c.act).filter p).map (c.w.read a)).foldl (foldOp ty op) (foldUnit ty op)

end Sys2Proof.Claims

/-- SHFL, RDLANE, QUAD, DDX and DDY (R271-R273, R278, R279): with their register checks passed, each active lane receives the
register of its source lane as it stands at issue, or the difference across its quad.

VOTE, MATCH, REDW and SCANW (R274-R277, R241): with their register checks passed, and for the last three in a converged
wave, they complete over the active lanes; the FP32 forms combine in the tree order of R241.

That the lowest active lane resolves an indexed A of an RDLANE to K, lane 0 where none is active, is the model's choice (log 54). -/
def Obligations.LaneExchangeResults : Prop :=
  (∀ (s : State) (h : Hdr) (c : Ctx) (ty : Ty) (mode : ShflMode) (qm : QuadMode) (n : BitVec 2) (d a b : Operand),
    s.ctx h = some c →
    (c.crossCheck [(d, regsOfTy ty)] [(b, 1)] a (regsOfTy ty) (shflFrom c mode b) = none →
      exec (.shfl h ty mode d a b) s = crossDone s c d (regsOfTy ty) a (shflFrom c mode b) (some b)) ∧
    (c.crossCheck [(d, regsOfTy ty)] [(b, 1)] a (regsOfTy ty) (fun l => ((c.w.read b l).extractLsb' 0 5).toNat) = none →
      exec (.rdlane h ty d a b) s =
        crossDone s c d (regsOfTy ty) a (fun l => ((c.w.read b l).extractLsb' 0 5).toNat) (some b)
          (fun l => if d.isK then (lanesOf c.act).headD 0 else l)) ∧
    (c.crossCheck [(d, 1)] [] a 1 (quadFrom qm n) = none →
      exec (.quad h ty qm n d a) s = crossDone s c d 1 a (quadFrom qm n) none) ∧
    (c.crossCheck [(d, 1)] [(a, 1)] a 1 (fun l => l ^^^ 1) = none →
      exec (.ddx h ty d a) s = .next (s.retire c (derivWave c d a 1) (some a) none)) ∧
    (c.crossCheck [(d, 1)] [(a, 1)] a 1 (fun l => l ^^^ 2) = none →
      exec (.ddy h ty d a) s = .next (s.retire c (derivWave c d a 2) (some a) none))) ∧
  (∀ (s : State) (h : Hdr) (c : Ctx) (ty : Ty) (mode : VoteMode) (op : RedOp) (d a : Operand), s.ctx h = some c →
    (c.regCheck [(d, 1)] [] = none → ∃ m : LaneMask, (∀ i < 32, m.getLsbD i = (c.act.getLsbD i && c.w.cond a i)) ∧
      exec (.vote h ty mode d a) s = laneDone s c d (fun _ => [match mode with
        | .all => allOnes (m == c.act)
        | .any => allOnes (m != 0)
        | .eq => allOnes (m == c.act || m == 0)
        | .ballot => m]) (some a) none) ∧
    (c.regCheck [(d, 1)] [(a, regsOfTy ty)] = none → c.converged = true →
      Gives (.matchI h ty d a) s c d (some a) none (fun l r => ∀ i < 32, r.getLsbD i = (c.act.getLsbD i &&
        (List.range (regsOfTy ty)).all fun j => c.w.readAt a i j == c.w.readAt a l j))) ∧
    (c.regCheck [(d, 1)] [(a, 1)] = none → c.converged = true → ty = .i32 ∨ ty = .n32 →
      exec (.redw h ty op d a) s = laneDone s c d (fun _ => [foldLanes c ty op a fun _ => true]) (some a) none ∧
      Gives (.scanw h ty op false d a) s c d (some a) none
        (fun l r => c.act.getLsbD l = true → r = foldLanes c ty op a fun i => decide (i ≤ l)) ∧
      Gives (.scanw h ty op true d a) s c d (some a) none
        (fun l r => c.act.getLsbD l = true → r = foldLanes c ty op a fun i => decide (i < l))) ∧
    (c.regCheck [(d, 1)] [(a, 1)] = none → c.converged = true →
      exec (.redw h .f32 op d a) s = laneDone s c d
        (fun _ => [(tree32 (redFn .f32 op) (c.laneVals a)).getD (redId .f32 op)]) (some a) none ∧
      exec (.scanw h .f32 op false d a) s = laneDone s c d
        (fun l => [((scan32 (redFn .f32 op) (c.laneVals a)).getD l none).getD (redId .f32 op)]) (some a) none ∧
      exec (.scanw h .f32 op true d a) s = laneDone s c d
        (fun l => [(if l = 0 then none else (scan32 (redFn .f32 op) (c.laneVals a)).getD (l - 1) none).getD (redId .f32 op)])
        (some a) none))

/-! ## System, special registers, waits (R281, R289-R305) -/

namespace Sys2Proof.Claims

/-- Barrier `n` of a level of the context's block. -/
def barrierOf (s : State) (c : Ctx) (lvl : BarLevel) (n : BitVec 4) : Barrier := (s.barriers c.bi lvl).getD n.toNat {}

end Sys2Proof.Claims

/-- NOP, YIELD and FENCEO, WSYNC without Ferry work, WAITC within its limits, and WAITC and FENCE with no active lane do nothing
but move on; YIELD with an active lane and the YIELD hint make the wave the youngest, and STALL holds it for its number of clk (R216, R225,
R289, R304, R124).

Where the condition of a waiting instruction is false it waits and nothing else changes (R281): WSYNC with Ferry work, WAITC
above a limit, TWAIT on pending tags, whose mask is the one read at its issue, BAR.wait in the phase of its operand, and BAR.wait and
BAR.sync that wait already while their barrier has not completed since.

That a waiting slot keeps its word is a reading (log 46). -/
def Obligations.WaitsAndHints : Prop :=
  (∀ (s : State) (h : Hdr) (c : Ctx) (m : MemMod) (ld st cp tl : BitVec 6), s.ctx h = some c →
    (∃ t, exec (.nop h) s = .next t ∧ JustAdvances s t c ∧ (t.wave c.wi).young = h.hint.yield ∧
      (t.wave c.wi).hold = s.clk + 1 + h.hint.stall.val) ∧
    (∃ t, exec (.yieldI h) s = .next t ∧ JustAdvances s t c ∧ (t.wave c.wi).young = (decide (c.act ≠ 0) || h.hint.yield)) ∧
    (∃ t, exec (.fenceo h) s = .next t ∧ JustAdvances s t c) ∧
    ((c.act = 0 ∧ c.waiting = false) ∨ s.ferryBusy c.wi = false → ∃ t, exec (.wsync h) s = .next t ∧ JustAdvances s t c) ∧
    ((c.act = 0 ∧ c.waiting = false) ∨ (c.w.ldc ≤ ld.toNat ∧ c.w.stc ≤ st.toNat ∧ c.w.cpc ≤ cp.toNat ∧ c.w.tlc ≤ tl.toNat) →
      ∃ t, exec (.waitc h ld st cp tl) s = .next t ∧ JustAdvances s t c) ∧
    (c.act = 0 → ∃ t, exec (.fence h m) s = .next t ∧ JustAdvances s t c)) ∧
  (∀ (s : State) (h : Hdr) (c : Ctx) (ld st cp tl : BitVec 6) (a : Operand) (lvl : BarLevel) (n : BitVec 4),
    s.ctx h = some c → c.act ≠ 0 ∨ c.waiting = true →
    let m := (c.w.slot c.isB).held.getD (c.w.read64 a 0)
    let turns := BitVec.ofNat 64 (barrierOf s c lvl n).turns
    (s.ferryBusy c.wi = true → ∃ t, exec (.wsync h) s = .next t ∧ Waits s t c none) ∧
    (ld.toNat < c.w.ldc ∨ st.toNat < c.w.stc ∨ cp.toNat < c.w.cpc ∨ tl.toNat < c.w.tlc →
      ∃ t, exec (.waitc h ld st cp tl) s = .next t ∧ Waits s t c none) ∧
    (c.regCheck [] [(a, 2)] = none ∨ (c.w.slot c.isB).held ≠ none → m &&& c.b.tpend ≠ 0 →
      ∃ t, exec (.twait h false a) s = .next t ∧ Waits s t c (some m)) ∧
    (c.regCheck [] [(a, 2)] = none ∨ (c.w.slot c.isB).held ≠ none → m &&& c.b.tags = 0 → m &&& c.b.tpend ≠ 0 →
      ∃ t, exec (.twait h true a) s = .next t ∧ Waits s t c (some m)) ∧
    ((c.w.slot c.isB).held = none → c.act ≠ 0 → c.regCheck [] [(a, 1)] = none → c.memberCheck s lvl n false = none →
      (barrierOf s c lvl n).phase = (c.w.read a 0).getLsbD 0 →
      ∃ t, exec (.barWait h lvl n a) s = .next t ∧ Waits s t c (some turns)) ∧
    ((c.w.slot c.isB).held = some turns → c.waiting = true → exec (.barWait h lvl n a) s = .next { s with stopped := true }) ∧
    ((c.w.slot c.isB).sync = some (barrierOf s c lvl n).turns → c.act ≠ 0 → c.waiting = true → c.converged = true →
      c.memberCheck s lvl n true = none → exec (.barSync h lvl n) s = .next { s with stopped := true }))

/-- SRD (R300-R302, R137, R153, R181): with its register checks passed it completes; TAGS, TPEND, TERR, WSTATUS, CLOCK, EXEC and
BLKPOS hold what their maps give.

SWR (R137, R181, R300): with its register check passed and a lane active it clears in TAGS, TERR or WSTATUS the bits its
operand sets, and no others; with no lane active it only moves on. -/
def Obligations.SpecialRegisters : Prop :=
  (∀ (s : State) (h : Hdr) (c : Ctx) (num : Byte) (d : Operand), s.ctx h = some c →
    (c.regCheck [(d, 2)] [] = none → ∃ v : DWord, v = c.sreg s num ∧
      exec (.srd h num d) s = .next (s.retire c (c.w.writePlain c.act d fun _ => pairOf v) none none)) ∧
    c.sreg s 0x08 = c.b.tags ∧ c.sreg s 0x09 = c.b.tpend ∧ c.sreg s 0x0A = c.b.terr ∧
    (c.sreg s 0x11).getLsbD 0 = c.w.pwoob ∧ (c.sreg s 0x11).getLsbD 1 = c.w.deriv ∧
    (c.sreg s 0x11).extractLsb' 2 62 = 0 ∧ (s.clk < 2 ^ 64 → (c.sreg s 0x18).toNat = s.clk) ∧
    (c.sreg s 0x19).extractLsb' 32 32 = c.mask ∧ (c.sreg s 0x19).extractLsb' 0 32 = c.act ∧
    (c.w.spawned = true → c.sreg s 0x01 = 0) ∧
    (c.w.spawned = false → c.b.x < 65536 → c.b.y < 65536 → c.b.z < 65536 →
      ((c.sreg s 0x01).extractLsb' 32 16).toNat = c.b.x ∧ ((c.sreg s 0x01).extractLsb' 16 16).toNat = c.b.y ∧
      ((c.sreg s 0x01).extractLsb' 0 16).toNat = c.b.z)) ∧
  (∀ (s : State) (h : Hdr) (c : Ctx) (num : Byte) (a : Operand), s.ctx h = some c → c.regCheck [] [(a, 2)] = none →
    c.bi < s.blocks.length →
    (c.act = 0 → ∃ t, exec (.swr h num a) s = .next t ∧ JustAdvances s t c) ∧
    (c.act ≠ 0 →
      (∃ t, exec (.swr h 0x08 a) s = .next t ∧ t.block c.bi = { c.b with tags := c.b.tags &&& ~~~ c.w.read64 a 0 } ∧
        JustAdvances s { t with blocks := s.blocks } c ∧ ∀ j, j ≠ c.bi → t.block j = s.block j) ∧
      (∃ t, exec (.swr h 0x0A a) s = .next t ∧ t.block c.bi = { c.b with terr := c.b.terr &&& ~~~ c.w.read64 a 0 } ∧
        JustAdvances s { t with blocks := s.blocks } c ∧ ∀ j, j ≠ c.bi → t.block j = s.block j) ∧
      (∃ t, exec (.swr h 0x11 a) s = .next t ∧ OnlyWave s t c.wi ∧ StepsOn s t c ∧ SameRegs c (t.wave c.wi) ∧
        (t.wave c.wi).pwoob = (c.w.pwoob && !(c.w.read64 a 0).getLsbD 0) ∧
        (t.wave c.wi).deriv = (c.w.deriv && !(c.w.read64 a 0).getLsbD 1))))

/-- A trap of the issuing instruction (R395, R396): with a handler enabled for its VM, the wave halts with a record of the
cause, slot, mask, PC, detail and word, keeps its PC, and joins its cluster's service-core queue; nothing else changes.

A trapped wave is not ready and none of its slots can look at its condition: it issues nothing (R208).

Return from a trap (R213, R399): a wave whose state passes the checks runs again from it, its record gone, all else as it
was but that the trapping slot fetches its instruction again, where no slot is left to fill (R202) and a record stands at its depth
(R288); one whose state leaves it no lane ends (R206); one whose state does not pass has its block killed with RESUME_INVALID.

TRAP with an active lane raises USER_TRAP and BKPT BREAKPOINT whatever lanes are active, each with its code as the detail;
TRAP with none only moves on (R299).

That the trapping slot fetches again is a reading (log 46). -/
def Obligations.TrapsAndReturn : Prop :=
  (∀ (s : State) (h : Hdr) (c : Ctx) (cause : Byte) (m : LaneMask) (v : DWord), s.ctx h = some c → c.b.svc = false →
    (Sparse.get 0 s.svcImg c.g.vm : DWord).getLsbD 63 = true →
    s.takeTrap c cause m v = { s with
      waves := s.waves.set c.wi { c.w with life := .trapped, trap := some ⟨cause, c.isB, m, c.pc, v, c.iw⟩, stalls := [], cancel := none }
      svcQueue := Sparse.set [] s.svcQueue (clusterOf c.b.core) (s.svcOf (clusterOf c.b.core) ++ [c.wi]) }) ∧
  (∀ (s : State) (wi : Nat) (isB : Bool), (s.wave wi).life ≠ .running → .issue wi isB ∉ s.actions) ∧
  (∀ (s : State) (wi : Nat),
    (∀ r isB, (s.wave wi).resumable = true → (s.wave wi).trap = some r →
      ((s.wave wi).slotA.valid = true ∧ (s.wave wi).slotB.valid = true) ∨ (s.wave wi).split = [] →
      ((s.wave wi).slot isB).valid = true → (s.wave wi).depth ≤ ((s.wave wi).path isB).depth →
      (s.wave wi).launched &&& ~~~ (s.wave wi).exited ≠ 0 → s.returnFromTrap wi = { s with
      waves := s.waves.set wi { (s.wave wi).setSlot r.slotB { (s.wave wi).slot r.slotB with waiting := false, held := none } with
        life := .running, trap := none } }) ∧
    ((s.wave wi).resumable = true → (s.wave wi).launched &&& ~~~ (s.wave wi).exited = 0 → wi < s.waves.length →
      ((s.returnFromTrap wi).wave wi).life = .ended) ∧
    ((s.wave wi).resumable = false → s.returnFromTrap wi = s.kill (s.wave wi).block 0x42)) ∧
  (∀ (s : State) (h : Hdr) (c : Ctx) (code : BitVec 16), s.ctx h = some c →
    (c.act ≠ 0 → exec (.trap h code) s = .next (s.takeTrap c 0x38 c.act (code.setWidth 64))) ∧
    (c.act = 0 → ∃ t, exec (.trap h code) s = .next t ∧ JustAdvances s t c) ∧
    exec (.bkpt h code) s = .next (s.takeTrap c 0x39 c.act (code.setWidth 64)))

/-- ICINV with an active lane leaves no line in the instruction caches of the cores in its scope, and changes no storage and no
other cache; with none it only moves on (R303). -/
def Obligations.InstructionCacheInvalidate : Prop :=
  ∀ (s : State) (h : Hdr) (c : Ctx) (sc : Scope), s.ctx h = some c → ∃ t, exec (.icinv h sc) s = .next t ∧
    JustAdvances s { t with cores := s.cores } c ∧
    (c.act = 0 → t.cores = s.cores) ∧
    (c.act ≠ 0 → (sc = .wave ∨ sc = .block → (t.core c.b.core).icache = []) ∧
      (sc = .cluster → ∀ k, k / 4 = c.b.core / 4 → (t.core k).icache = []) ∧
      (sc = .device ∨ sc = .system → ∀ k, k < 160 → (t.core k).icache = []) ∧
      (∀ k, t.core k = s.core k ∨ t.core k = { s.core k with icache := [], codeFrom := s.codeHeld.length }))

/-- LNCH with an active lane and its checks passed (R305, R383): it submits one entry at the end of its VM's launch queues with
status 0, or submits nothing with status 2 (device queue off) or 1 (64 device entries). -/
def Obligations.DeviceSideLaunch : Prop :=
  ∀ (s : State) (h : Hdr) (c : Ctx) (d a : Operand), s.ctx h = some c → c.act ≠ 0 → c.regCheck [(d, 1)] [(a, 2)] = none →
    (c.w.read64 a 0).extractLsb' 56 8 = 0 → (c.w.read64 a 0).extractLsb' 0 6 = 0 →
    let q := s.lqOf c.g.vm
    let status : Word := if q.dev = false then 2 else if 64 ≤ q.devCount then 1 else 0
    ∃ t, exec (.lnch h d a) s = .next t ∧
      t.lqOf c.g.vm = (if status = 0 then { q with subs := q.subs ++ [.dev (c.w.read64 a 0) c.g.asid] } else q) ∧
      (∀ vm, vm ≠ c.g.vm → t.lqOf vm = s.lqOf vm) ∧ StepsOn s t c ∧ (∀ j, j ≠ c.wi → t.wave j = s.wave j) ∧
      t.wave c.wi = (s.retire c (c.w.writePlain c.act d fun _ => [status]) (some a) none).wave c.wi

/-- TWAIT over ready tags and TFIRST (R290-R292): TWAIT moves on when its condition holds and no ready tag of its mask, the one read at its
issue, holds an error; TFIRST gives the lowest ready tag, or ones; a ready tag with an error raises ENGINE_ERROR with the tag as the detail. -/
def Obligations.TagWaits : Prop :=
  ∀ (s : State) (h : Hdr) (c : Ctx) (any : Bool) (d a : Operand), s.ctx h = some c →
    let m := c.w.read64 a 0
    let kept := (c.w.slot c.isB).held.getD m
    let go := if any then kept &&& c.b.tags ≠ 0 ∨ kept &&& (c.b.tags ||| c.b.tpend) = 0 else kept &&& c.b.tpend = 0
    let read := c.regCheck [] [(a, 2)] = none ∨ (c.w.slot c.isB).held ≠ none
    (read → c.act = 0 → c.waiting = false → ∃ t, exec (.twait h any a) s = .next t ∧ JustAdvances s t c) ∧
    (read → c.act ≠ 0 ∨ c.waiting = true → go → kept &&& c.b.tags &&& c.b.terr = 0 →
      ∃ t, exec (.twait h any a) s = .next t ∧ JustAdvances s t c) ∧
    (read → c.act ≠ 0 ∨ c.waiting = true → go → ∀ g < 64, (kept &&& c.b.tags &&& c.b.terr).getLsbD g = true →
      (∀ k < g, (kept &&& c.b.tags &&& c.b.terr).getLsbD k = false) →
      exec (.twait h any a) s = .next (s.takeTrap c 0x34 c.act (.ofNat 64 g))) ∧
    (c.regCheck [(d, 1)] [(a, 2)] = none → m &&& c.b.tags = 0 →
      exec (.tfirst h d a) s = .next (s.retire c (c.w.writePlain c.act d fun _ => [0xFFFFFFFF]) (some a) none)) ∧
    (c.regCheck [(d, 1)] [(a, 2)] = none → ∀ g < 64, (m &&& c.b.tags).getLsbD g = true →
      (∀ k < g, (m &&& c.b.tags).getLsbD k = false) →
      exec (.tfirst h d a) s = if c.b.terr.getLsbD g = true ∧ c.act ≠ 0 then .next (s.takeTrap c 0x34 c.act (.ofNat 64 g))
        else .next (s.retire c (c.w.writePlain c.act d fun _ => [.ofNat 32 g]) (some a) none))

namespace Sys2Proof.Claims

/-- A barrier after one arrival (R161): COUNT goes up by one, or with the last expected arrival back to 0 with the other phase. -/
def Arrived (b b' : Barrier) : Prop :=
  b' = if b.e ≤ (b.count + 1) % 4096 then { b with count := 0, phase := !b.phase, turns := b.turns + 1 } else { b with count := (b.count + 1) % 4096 }

end Sys2Proof.Claims

/-- The barrier instructions (R161, R293-R298): in a converged member wave BAR.arrive and BAR.sync count one arrival, which on a
raster barrier ends the wave's emission (R370); BAR.sync then
moves on where the arrival ended the phase and waits where it did not; BAR.wait moves on in the other phase than its operand's; either that
waits moves on after the barrier's next completion;
BARPH reads E, COUNT and PHASE; a barrier the wave may not use raises BARRIER_MEMBER. -/
def Obligations.BarrierInstructions : Prop :=
  ∀ (s : State) (h : Hdr) (c : Ctx) (lvl : BarLevel) (n : BitVec 4) (d a : Operand), s.ctx h = some c →
    (c.converged = true → c.memberCheck s lvl n true = none → c.act ≠ 0 →
      (∃ t, exec (.barArrive h lvl n) s = .next t ∧ Arrived (barrierOf s c lvl n) (barrierOf t c lvl n) ∧ StepsOn s t c ∧
        SameWave c { t.wave c.wi with triple := c.w.triple, emitted := c.w.emitted } ∧
        (t.wave c.wi).emitted = (c.w.emitted || (lvl == .gb && (barrierOf s c lvl n).raster)) ∧
        (∀ j, j ≠ c.wi → t.wave j = s.wave j) ∧
        ∀ k : BitVec 4, k ≠ n → barrierOf t c lvl k = barrierOf s c lvl k) ∧
      ((c.w.slot c.isB).sync = none → ∃ t, exec (.barSync h lvl n) s = .next t ∧
        Arrived (barrierOf s c lvl n) (barrierOf t c lvl n) ∧
        (if (barrierOf t c lvl n).phase ≠ (barrierOf s c lvl n).phase then StepsOn s t c
          else (t.wave c.wi).slot c.isB =
            { c.w.slot c.isB with waiting := true, word := c.iw, held := none, sync := some (barrierOf s c lvl n).turns }) ∧
        ∀ k : BitVec 4, k ≠ n → barrierOf t c lvl k = barrierOf s c lvl k) ∧
      (∀ p, (c.w.slot c.isB).sync = some p → (barrierOf s c lvl n).turns ≠ p → ∃ t, exec (.barSync h lvl n) s = .next t ∧ StepsOn s t c ∧
        SameWave c (t.wave c.wi) ∧ SameBytes s t ∧ (∀ j, j ≠ c.wi → t.wave j = s.wave j) ∧ t.blocks = s.blocks ∧ t.grids = s.grids)) ∧
    (∀ p, (c.w.slot c.isB).held = some p → BitVec.ofNat 64 (barrierOf s c lvl n).turns ≠ p →
      ∃ t, exec (.barWait h lvl n a) s = .next t ∧ StepsOn s t c ∧ SameWave c (t.wave c.wi) ∧ SameBytes s t ∧
        (∀ j, j ≠ c.wi → t.wave j = s.wave j) ∧ t.blocks = s.blocks ∧ t.grids = s.grids) ∧
    ((c.w.slot c.isB).held = none → c.regCheck [] [(a, 1)] = none → c.memberCheck s lvl n false = none → c.act ≠ 0 →
      (barrierOf s c lvl n).phase ≠ (c.w.read a 0).getLsbD 0 → ∃ t, exec (.barWait h lvl n a) s = .next t ∧ StepsOn s t c ∧
        SameWave c (t.wave c.wi) ∧ SameBytes s t ∧ (∀ j, j ≠ c.wi → t.wave j = s.wave j) ∧ t.blocks = s.blocks ∧ t.grids = s.grids) ∧
    (c.regCheck [(d, 1)] [] = none → c.memberCheck s lvl n false = none → ∃ v : Word,
      exec (.barph h lvl n d) s = .next (s.retire c (c.w.writePlain c.act d fun _ => [v]) none none) ∧
      v.getLsbD 0 = (barrierOf s c lvl n).phase ∧
      ((barrierOf s c lvl n).count < 4096 → (v.extractLsb' 1 12).toNat = (barrierOf s c lvl n).count) ∧
      ((barrierOf s c lvl n).e < 4096 → (v.extractLsb' 13 12).toNat = (barrierOf s c lvl n).e)) ∧
    (c.memberCheck s lvl n true = none ↔ c.w.spawned = false ∧ (barrierOf s c lvl n).expect ≠ 0 ∧
      (barrierOf s c lvl n).members.getLsbD c.w.role.val = true) ∧
    (c.converged = true → ¬ (c.memberCheck s lvl n true = none) →
      exec (.barArrive h lvl n) s = .next (s.takeTrap c 0x18 c.act 0) ∧ exec (.barSync h lvl n) s = .next (s.takeTrap c 0x18 c.act 0))

/-! ## Branches, joins, structured flow, calls, EXIT (R182, R183, R194-R206, R280-R289) -/

namespace Sys2Proof.Claims

/-- A code target: the instruction's own address + 4 * IMM, IMM signed, modulo 2^64 (R214). -/
def targetOf (c : Ctx) (imm : Word) : DWord := c.pc + 4 * imm.signExtend 64

/-- The wave has gone on with another path or other counters: registers but for reuse, flags, X, frames and window as before, and
beyond the wave nothing but Ferry work for its split stack. -/
def Flows (s t : State) (c : Ctx) : Prop :=
  OnlyWave s { t with cores := s.cores } c.wi ∧ c.wi < s.waves.length ∧ SameRegs c (t.wave c.wi) ∧
    (t.wave c.wi) = { c.w with
      regs := (t.wave c.wi).regs, poison := (t.wave c.wi).poison, slotA := (t.wave c.wi).slotA, slotB := (t.wave c.wi).slotB
      split := (t.wave c.wi).split, nest := (t.wave c.wi).nest, jreg := (t.wave c.wi).jreg, young := (t.wave c.wi).young
      hold := (t.wave c.wi).hold }

/-- The issuing slot stands at `p`; the other slot and the split stack are as before. -/
def SlotAt (t : State) (c : Ctx) (p : Path) : Prop :=
  (t.wave c.wi).slot c.isB = { (t.wave c.wi).slot c.isB with valid := true, path := p } ∧
    (t.wave c.wi).path (!c.isB) = c.w.path (!c.isB) ∧ ((t.wave c.wi).slot (!c.isB)).valid = (c.w.slot (!c.isB)).valid ∧
    (t.wave c.wi).split = c.w.split

/-- The counters of the lanes of the slot's MASK have become what `f` makes of them; the other lanes keep theirs. -/
def Counters (t : State) (c : Ctx) (f : Nat → Nat → Nat) : Prop :=
  ∀ l < 32, (t.wave c.wi).nestOf l = if c.mask.getLsbD l then f l (c.w.nestOf l) else c.w.nestOf l

/-- The PC after an instruction that skips to its target when no lane of the MASK has counter 0. -/
def skipPc (t : State) (c : Ctx) (imm : Word) : DWord :=
  if ∃ l < 32, c.mask.getLsbD l = true ∧ (t.wave c.wi).nestOf l = 0 then c.pc + 12 else targetOf c imm

/-- The counters as they were. -/
def SameCounters (t : State) (c : Ctx) : Prop := (t.wave c.wi).nest = c.w.nest ∧ (t.wave c.wi).jreg = c.w.jreg

end Sys2Proof.Claims

/-- BRA and BRC (R201, R202): BRA takes the whole slot to its target; BRC goes on with no lane taken, jumps with all of them, and
otherwise splits: the slot keeps the others at PC + 12 and the taken lanes go to the other slot, or with it in use to the split
stack; a split that finds no room raises SPLIT_OVERFLOW. -/
def Obligations.Branches : Prop :=
  ∀ (s : State) (h : Hdr) (c : Ctx) (x : Operand) (target : Word) (taken : LaneMask), s.ctx h = some c →
    (∀ l < 32, taken.getLsbD l = (c.act.getLsbD l && c.w.cond x l)) →
    (∃ t, exec (.bra h target) s = .next t ∧ Flows s t c ∧ SameCounters t c ∧
      SlotAt t c { c.path with pc := targetOf c target }) ∧
    (taken = 0 → ∃ t, exec (.brc h x target) s = .next t ∧ Flows s t c ∧ SameCounters t c ∧
      SlotAt t c { c.path with pc := c.pc + 12 }) ∧
    (taken ≠ 0 → taken = c.mask → ∃ t, exec (.brc h x target) s = .next t ∧ Flows s t c ∧ SameCounters t c ∧
      SlotAt t c { c.path with pc := targetOf c target }) ∧
    (taken ≠ 0 → taken ≠ c.mask → (c.w.slot (!c.isB)).valid = false → ∃ t, exec (.brc h x target) s = .next t ∧
      Flows s t c ∧ SameCounters t c ∧ (t.wave c.wi).split = c.w.split ∧
      (t.wave c.wi).path c.isB = { c.path with mask := c.mask &&& ~~~ taken, pc := c.pc + 12 } ∧
      (t.wave c.wi).slot (!c.isB) = { valid := true, path := { mask := taken, pc := targetOf c target, depth := c.path.depth } }) ∧
    (taken ≠ 0 → taken ≠ c.mask → (c.w.slot (!c.isB)).valid = true → c.w.split.length < c.w.splitMax →
      ∃ t, exec (.brc h x target) s = .next t ∧ Flows s t c ∧ SameCounters t c ∧
      (t.wave c.wi).split = c.w.split ++ [{ mask := taken, pc := targetOf c target, depth := c.path.depth }] ∧
      (t.wave c.wi).path c.isB = { c.path with mask := c.mask &&& ~~~ taken, pc := c.pc + 12 } ∧
      (t.wave c.wi).path (!c.isB) = c.w.path (!c.isB)) ∧
    (taken ≠ 0 → taken ≠ c.mask → (c.w.slot (!c.isB)).valid = true → c.w.splitMax ≤ c.w.split.length →
      exec (.brc h x target) s = .next (s.takeTrap c 0x27 c.act 0))

/-- JMASK and JOIN (R203-R205): JMASK sets Jn to the active lanes and lets what is parked on it go on; JOIN takes the slot's lanes
out of Jn, parks where lanes are left in it, and where none is left goes on with every path parked on it merged in; paths of two
depths raise ILLEGAL_CONVERGENCE. -/
def Obligations.Joins : Prop :=
  ∀ (s : State) (h : Hdr) (c : Ctx) (n : Fin 8), s.ctx h = some c →
    (∃ t, exec (.jmask h (.j n)) s = .next t ∧ Flows s t c ∧ (t.wave c.wi).jOf n.val = c.act ∧
      (∀ k : Fin 8, k ≠ n → (t.wave c.wi).jOf k.val = c.w.jOf k.val) ∧ ((t.wave c.wi).path c.isB).pc = c.pc + 12 ∧
      ∀ p ∈ (t.wave c.wi).records, p.park = true → p.pj ≠ n) ∧
    (c.w.jOf n.val &&& ~~~ c.mask ≠ 0 → ∃ t, exec (.join h (.j n)) s = .next t ∧ Flows s t c ∧
      (t.wave c.wi).jOf n.val = c.w.jOf n.val &&& ~~~ c.mask ∧
      (c.w.eligible (!c.isB) = true → (t.wave c.wi).path c.isB = { c.path with pc := c.pc + 12, park := true, pj := n })) ∧
    (c.w.jOf n.val &&& ~~~ c.mask = 0 → (∀ p ∈ c.w.parkedOthers c.isB n.val, p.depth = c.path.depth) →
      ∃ t, exec (.join h (.j n)) s = .next t ∧ Flows s t c ∧ (t.wave c.wi).jOf n.val = 0 ∧
      (t.wave c.wi).path c.isB = { c.path with
        mask := (c.w.parkedOthers c.isB n.val).foldl (fun m p => m ||| p.mask) c.mask, pc := c.pc + 12 }) ∧
    (c.w.jOf n.val &&& ~~~ c.mask = 0 → (∃ p ∈ c.w.parkedOthers c.isB n.val, p.depth ≠ c.path.depth) →
      exec (.join h (.j n)) s = .next (s.takeTrap c 0x09 c.act 0))

/-- Structured flow (R197, R198): the new counter of each lane of the slot's MASK for IF, ELSE, ENDIF, LOOP, BREAK, CONT and
ENDLOOP, and where the slot goes; IF and LOOP raise NESTING_OVERFLOW where a counter would pass 63. -/
def Obligations.StructuredFlow : Prop :=
  ∀ (s : State) (h : Hdr) (c : Ctx) (x : Operand) (n : BitVec 6) (target : Word), s.ctx h = some c →
    ((∀ l < 32, c.mask.getLsbD l = true → c.w.nestOf l < 63) → ∃ t, exec (.ifI h x target) s = .next t ∧ Flows s t c ∧
      Counters t c (fun l k => if 0 < k then k + 1 else if c.w.cond x l then 0 else 1) ∧
      SlotAt t c { c.path with pc := skipPc t c target }) ∧
    (∃ t, exec (.elseI h target) s = .next t ∧ Flows s t c ∧
      Counters t c (fun _ k => if k = 0 then 1 else if k = 1 then 0 else k) ∧ SlotAt t c { c.path with pc := skipPc t c target }) ∧
    (∃ t, exec (.endifI h) s = .next t ∧ Flows s t c ∧ Counters t c (fun _ k => k - 1) ∧
      SlotAt t c { c.path with pc := c.pc + 12 }) ∧
    ((∀ l < 32, c.mask.getLsbD l = true → c.w.nestOf l < 62) → ∃ t, exec (.loop h) s = .next t ∧ Flows s t c ∧
      Counters t c (fun _ k => if k = 0 then 0 else k + 2) ∧ SlotAt t c { c.path with pc := c.pc + 12 }) ∧
    (∃ t, exec (.breakI h x n) s = .next t ∧ Flows s t c ∧
      Counters t c (fun l k => if c.act.getLsbD l && c.w.cond x l then n.toNat else k) ∧
      SlotAt t c { c.path with pc := c.pc + 12 }) ∧
    (∃ t, exec (.cont h x n) s = .next t ∧ Flows s t c ∧
      Counters t c (fun l k => if c.act.getLsbD l && c.w.cond x l then n.toNat - 1 else k) ∧
      SlotAt t c { c.path with pc := c.pc + 12 }) ∧
    (∃ t, exec (.endloop h target) s = .next t ∧ Flows s t c ∧
      (if ∃ l < 32, c.mask.getLsbD l = true ∧ c.w.nestOf l ≤ 1 then
        Counters t c (fun _ k => if k = 1 then 0 else k) ∧ SlotAt t c { c.path with pc := targetOf c target }
      else Counters t c (fun _ k => k - 2) ∧ SlotAt t c { c.path with pc := c.pc + 12 })) ∧
    ((∃ l < 32, c.mask.getLsbD l = true ∧ 63 ≤ c.w.nestOf l) → ∃ m, exec (.ifI h x target) s = .next (s.takeTrap c 0x26 m 0)) ∧
    ((∃ l < 32, c.mask.getLsbD l = true ∧ 62 ≤ c.w.nestOf l) → ∃ m, exec (.loop h) s = .next (s.takeTrap c 0x26 m 0))

namespace Sys2Proof.Claims

/-- A wave has entered a callee (R182, R285): a frame of `4 * f4` registers that returns to PC + 12 is the newest one, the window
base is moved by them, and the slot stands at the target one deeper. -/
def Entered (t : State) (c : Ctx) (f4 : BitVec 5) (target : DWord) : Prop :=
  (t.wave c.wi).frames.getLast?.map (fun f => (f.retpc, f.fsz, f.sbase)) = some (c.pc + 12, f4.toNat, c.w.frameSum) ∧
    (t.wave c.wi).depth = c.w.depth + 1 ∧ (t.wave c.wi).wb = (c.w.wb + 4 * f4.toNat) % c.w.ringN ∧
    ((t.wave c.wi).path c.isB).pc = target ∧ ((t.wave c.wi).path c.isB).depth = c.w.depth + 1

/-- The call's own checks pass: the frame fits the window, the depth and the spill area (R182), and the Ferry's buffer has room for the
registers that the call spills (R187). -/
def CallFits (s : State) (c : Ctx) (f4 : BitVec 5) : Prop :=
  4 * f4.toNat ≤ c.w.win ∧ c.w.depth ≠ 4096 ∧ c.w.frameSum + 4 * f4.toNat ≤ 512 * c.w.spillUnits ∧
    (s.core c.b.core).buffered + spillSize ((c.go s).callWindow c.wi (4 * f4.toNat) (c.pc + 12)).2 ≤ 512

/-- Every active lane of the context names the same target, and no other lane waits in the slot with counter 0. -/
def Together (c : Ctx) (t : Nat → DWord) (q : DWord) : Prop :=
  c.act ≠ 0 ∧ (∀ l < 32, c.act.getLsbD l = true → t l = q) ∧ ∀ l < 32, c.w.laneOn c.isB l = true → c.act.getLsbD l = true

end Sys2Proof.Claims

/-- CALL, CALLI and RET (R182, R183, R284-R287): a call whose lanes go to one target pushes a frame, moves the window base and
enters the callee; where the registers still fit the ring no frame is spilled and nothing but the wave changes.  RET of a
frame held in the ring takes all that back.  A call whose spills the Ferry's buffer has no room for does not issue (R187).  REG_BOUND, WINDOW_OVERFLOW, WINDOW_UNDERFLOW and BAD_TARGET where they are due. -/
def Obligations.CallsAndReturns : Prop :=
  ∀ (s : State) (h : Hdr) (c : Ctx) (f4 : BitVec 5) (target : Word) (a b : Operand) (q : DWord), s.ctx h = some c →
    (Together c (fun _ => targetOf c target) (targetOf c target) → CallFits s c f4 → ∃ t, exec (.call h f4 target) s = .next t ∧
      Entered t c f4 (targetOf c target) ∧
      (c.w.res + 4 * f4.toNat ≤ c.w.ringN - c.w.win → c.w.depth < 16 → OnlyWave s t c.wi ∧
        (t.wave c.wi).frames.dropLast = c.w.frames ∧ (t.wave c.wi).res = c.w.res + 4 * f4.toNat ∧ SameRegs c (t.wave c.wi))) ∧
    (c.regCheck [] [(a, 1), (b, 1)] = none → Together c (fun l => c.w.read b l ++ c.w.read a l) q →
      q.extractLsb' 56 8 = 0 → q.extractLsb' 0 2 = 0 → CallFits s c f4 →
      ∃ t, exec (.calli h f4 a b) s = .next t ∧ Entered t c f4 q) ∧
    (c.regCheck [] [(a, 1), (b, 1)] = none → Together c (fun l => c.w.read b l ++ c.w.read a l) q →
      q.extractLsb' 56 8 ≠ 0 ∨ q.extractLsb' 0 2 ≠ 0 → exec (.calli h f4 a b) s = .next (s.takeTrap c 0x16 c.act 0)) ∧
    (Together c (fun _ => targetOf c target) (targetOf c target) → c.w.win < 4 * f4.toNat →
      exec (.call h f4 target) s = .next (s.takeTrap c 0x06 c.act 0)) ∧
    (Together c (fun _ => targetOf c target) (targetOf c target) → 4 * f4.toNat ≤ c.w.win →
      c.w.depth = 4096 ∨ 512 * c.w.spillUnits < c.w.frameSum + 4 * f4.toNat →
      exec (.call h f4 target) s = .next (s.takeTrap c 0x28 c.act 0)) ∧
    (c.act = 0 → ∃ t, exec (.call h f4 target) s = .next t ∧ JustAdvances s t c) ∧
    (∀ f, c.w.frames.getLast? = some f → f.spilled = false → c.w.onchip ≠ 0 → c.retStrays = 0 →
      ∃ t, exec (.ret h) s = .next t ∧ (t.wave c.wi).frames = c.w.frames.dropLast ∧
        (t.wave c.wi).wb = (c.w.wb + c.w.ringN - f.size % c.w.ringN) % c.w.ringN ∧ (t.wave c.wi).res = c.w.res - f.size ∧
        (t.wave c.wi).path c.isB = { c.path with pc := f.retpc, depth := c.w.depth - 1 } ∧ SameRegs c (t.wave c.wi) ∧
        OnlyWave s t c.wi) ∧
    (∀ f, c.w.frames.getLast? = some f → f.spilled = true ∨ c.w.onchip = 0 → c.retStrays = 0 →
      ∃ t, exec (.ret h) s = .next t ∧ (t.wave c.wi).refilling = true ∧ (t.wave c.wi).frames = c.w.frames ∧
        (c.waiting = false → OnlyWave s t c.wi)) ∧
    (4 * f4.toNat ≤ c.w.win → c.w.depth ≠ 4096 →
      c.w.frameSum + 4 * f4.toNat ≤ 512 * c.w.spillUnits →
      512 < (s.core c.b.core).buffered + spillSize ((c.go s).callWindow c.wi (4 * f4.toNat) (c.pc + 12)).2 →
      Together c (fun _ => targetOf c target) (targetOf c target) → exec (.call h f4 target) s = .next { s with stopped := true }) ∧
    (c.w.frames = [] → exec (.ret h) s = .next (s.takeTrap c 0x29 c.act 0))

/-- The window of a call that spills nothing is restored by the return: frames, window base, registers held and records on
chip (R182, R183). -/
def Obligations.ReturnRestoresWindow : Prop :=
  ∀ (w : Wave) (wi f4 : Nat) (pc : DWord), w.wb < w.ringN → w.res + 4 * f4 ≤ w.ringN - w.win → w.depth < 16 →
    let v := (w.callWindow wi (4 * f4) pc).1
    v.frames.getLast? = some ⟨pc, f4, false, w.frameSum⟩ ∧ v.popWindow ⟨pc, f4, false, w.frameSum⟩ true = w

/-- EXIT (R206, R289): the active lanes enter EXITED and leave every path of the wave; with lanes left the wave runs on, with none
it ends; storage is as before. -/
def Obligations.ExitLanes : Prop :=
  ∀ (s : State) (h : Hdr) (c : Ctx), s.ctx h = some c → ∃ t, exec (.exit h) s = .next t ∧
    (t.wave c.wi).exited = c.w.exited ||| c.act ∧ SameBytes s t ∧ SameRegs c (t.wave c.wi) ∧ (t.wave c.wi).flag = c.w.flag ∧
    (t.wave c.wi).xreg = c.w.xreg ∧ (∀ j, j ≠ c.wi → t.wave j = s.wave j) ∧
    (∀ p ∈ (t.wave c.wi).records, p.mask &&& c.act = 0) ∧
    (t.wave c.wi).life = (if c.w.launched &&& ~~~ (c.w.exited ||| c.act) = 0 then .ended else .running)

/-! ## Memory (R41-R50, R113-R131, R142, R143, R223, R306-R316) -/

namespace Sys2Proof.Claims

/-- The byte that a core's load sees: its L1's where the sector is valid or the byte dirty, else the home's (R47). -/
def seenByte (s : State) (core k : Nat) : Byte :=
  match (s.core core).line k with
  | some ln => if ln.hits (k % 256) then ln.byte (k % 256) else s.byte k
  | none => s.byte k

/-- A dirty byte of a core's L1. -/
def DirtyIn (s : State) (core a : Nat) : Prop :=
  ∃ ln ∈ (s.core core).l1, ∃ i < 256, ln.isDirty i = true ∧ a = ln.loc + i

/-- Every byte at a home is as before, but where a dirty byte of the core's L1 may have gone home. -/
def SameHomes (s t : State) (core : Nat) : Prop := ∀ a, a < windowTop → ¬ DirtyIn s core a → t.byte a = s.byte a

/-- The checks of a lane access after those of the registers pass (R307, R397): bound, alignment where it is asked for, range
locks; for the scratchpad no access before it still occupies it (R43); for the translated spaces no cancelled fault, a cached translation
of every byte, and what R92, R95 and R106 ask. -/
def Clear (s : State) (c : Ctx) (scr aligned : Bool) (acc : Access) (accs : List (Nat × Nat)) (w : Nat) : Prop :=
  c.boundCheck s scr accs w = none ∧ (aligned = true → alignCheck accs w = none) ∧ c.lockCheck s acc.writes scr accs w = none ∧
    (scr = true → (s.core (scrOf c.b)).scrBusy ≤ s.clk) ∧
    (scr = false → c.cancelCheck accs w = none ∧ s.misses c.unit c.space acc (walkedVas accs w) = [] ∧
      c.landingCheck s acc.writes accs w = none ∧ (acc.writes = false → c.staleCheck s accs w = none) ∧
      (acc.writes = true → c.specCheck accs w = none))

/-- The instruction is counted on `ctr` as outstanding in its active lanes with what it will write, and its slot moves on; its
registers, its flags and the rest of its wave are as before until its part is done (R223). -/
def Outstanding (s t : State) (c : Ctx) (ctr : Ctr) (n : Counted) : Prop :=
  (t.wave c.wi).counted = c.w.counted ++ [(c.w.serial, n)] ∧ n.ctr = ctr ∧ n.lanes = c.act ∧ n.op = none ∧
    (t.wave c.wi).counter ctr = c.w.counter ctr + 1 ∧ (∀ k, k ≠ ctr → (t.wave c.wi).counter k = c.w.counter k) ∧ StepsOn s t c ∧
    SameRegs c (t.wave c.wi) ∧ SameRest c.w (t.wave c.wi) ∧
    ∀ j, j ≠ c.wi → t.wave j = s.wave j

/-- The last value that a list of writes gives a key. -/
def lastOf (kvs : List (Nat × Byte)) (k : Nat) : Option Byte := (kvs.reverse.find? fun kv => kv.1 == k).map Prod.snd

/-- Bytes of a number, the lowest first. -/
def lowBytes (n v : Nat) : List Byte := (List.range n).map fun i => .ofNat 8 (v / 256 ^ i)

end Sys2Proof.Claims

/-- LD with its checks passed (R223, R306-R309): it is counted on LDC and will write to each active lane the bytes of its access,
extended below 32 bits: those of the scratchpad, or those its core sees, where its L1 holds nothing or every byte of the
access and nothing is held compressed.  No byte at a home changes but where an evicted line's dirty bytes go home, or where a service core reads
while a Window Ferry holds spills (R192).

That the access happens at issue and its result lands later is the model's choice (log 4); what a hint overwrites is a
reading (log 45). -/
def Obligations.Loads : Prop :=
  ∀ (s : State) (h : Hdr) (c : Ctx) (m : MemMod) (d a b : Operand) (off : Word), s.ctx h = some c → c.act ≠ 0 → c.w.ldc < 63 →
    let accs := c.accs m.scr a b off
    let w := Ty.bytes m.ty
    let seen := fun va => seenByte s c.b.core (s.locOf c .load va).key
    c.regCheck [(d, Ty.words m.ty)] [(a, 1), (b, 1)] = none → Clear s c m.scr (m.scr || m.ord != .plain) .load accs w →
    ∃ (t : State) (n : Counted) (val : Nat → List Byte) (bad : Nat → Bool), exec (.ld h m d a b off) s = .next t ∧
      Outstanding s t c .ld n ∧ n.writes = kept c (some a) (if m.scr then none else some b) (c.w.pending c.act d fun l => (loadWords m.ty (val l), bad l)) ∧
      ((c.b.svc = true → ∀ k, (s.core k).ferry = []) → SameHomes s t c.b.core) ∧ t.blocks = s.blocks ∧
      (m.scr = true → SameBytes s t ∧ ∀ x ∈ accs, val x.1 = (span x.2 w).map fun o => (c.b.scrByte o).1) ∧
      (m.scr = false → (c.b.svc = true → ∀ k, (s.core k).ferry = []) → (∀ x ∈ accs, ∀ va ∈ span x.2 w, (s.locOf c .load va).key < windowTop) →
        s.cmp.stored = [] → (∀ ln ∈ (s.core c.b.core).l1, ln.comp = []) →
        ((s.core c.b.core).l1 = [] ∨ (∀ x ∈ accs, ∀ va ∈ span x.2 w, (s.locOf c .load va).bypass = false ∧
          (s.core c.b.core).noWay (s.locOf c .load va).key = false ∧ ∃ ln, (s.core c.b.core).line (s.locOf c .load va).key = some ln ∧ ln.hits ((s.locOf c .load va).key % 256) = true) ∧ m.ord = .plain) →
        SameBytes s t ∧ ∀ x ∈ accs, val x.1 = (span x.2 w).map seen)

/-- LDP with its checks passed (R311, R181): its window bound, it is counted on LDC and will write to each active lane the bytes of
the window at the lane's offset, with 0 beyond the window's size, each aligned word as it is or, where a store has changed it, as it
was when the grid was accepted; a lane that reaches beyond it sets PWOOB.

That the access happens at issue is the model's choice (log 4), and the old value that a cache may hold is any that the grid
has kept (log 49). -/
def Obligations.WindowLoads : Prop :=
  ∀ (s : State) (h : Hdr) (c : Ctx) (ty : Ty) (n : BitVec 4) (off : BitVec 28) (d a : Operand) (base size : Nat),
    s.ctx h = some c → c.act ≠ 0 → c.w.ldc < 63 → c.regCheck [(d, Ty.words ty)] [(a, 1)] = none →
    (c.window n.toNat = none → exec (.ldp h ty n off d a) s = .next (s.takeTrap c 0x14 c.act 0)) ∧
    (c.window n.toNat = some (base, size) →
      let offs := (lanesOf c.act).map fun l => (l, (c.w.read a l).toNat + off.toNat)
      let bytes := ldpBytes base size offs (Ty.bytes ty)
      Clear s c false false .load bytes 1 → (s.core c.b.core).l1 = [] → s.cmp.stored = [] →
      (c.b.svc = true → ∀ k, (s.core k).ferry = []) →
      (∀ x ∈ bytes, (s.locOf c .load x.2).key < windowTop) →
      ∃ (t : State) (k : Counted) (bad : Nat → Bool) (old : Nat → Nat → Nat), exec (.ldp h ty n off d a) s = .next t ∧ Outstanding s t c .ld k ∧
        k.writes = kept c (some a) none (c.w.pending c.act d fun l => (loadWords ty ((span ((c.w.read a l).toNat + off.toNat) (Ty.bytes ty)).map fun p =>
          if p < size then
            c.g.windowByte (old l ((base + p) / 4)) (s.locOf c .load (base + p)).key (s.byte (s.locOf c .load (base + p)).key)
          else 0), bad l)) ∧ SameBytes s t ∧
        (t.wave c.wi).pwoob = (c.w.pwoob || (lanesOf c.act).any fun l =>
          decide (size < (c.w.read a l).toNat + off.toNat + Ty.bytes ty)))

/-- ST with its checks passed (R44, R47, R115, R306-R309): it is counted on STC; in the scratchpad each byte stored to holds the
value of the highest lane that stores to it and every other byte what it held; in global memory the issuing core sees the stored
values, and no other byte changes at its home but where an evicted line's dirty bytes go home.

That the access happens at issue is the model's choice (log 4). -/
def Obligations.Stores : Prop :=
  ∀ (s : State) (h : Hdr) (c : Ctx) (m : MemMod) (d a b : Operand) (off : Word), s.ctx h = some c → c.act ≠ 0 → c.w.stc < 63 →
    let accs := c.accs m.scr a b off
    let stored := accs.flatMap fun x => writesFrom x.2 (c.storeVal m.ty d x.1)
    let homes := stored.map fun kv => ((s.locOf c .store kv.1).key, kv.2)
    c.bi < s.blocks.length → c.regCheck [] [(d, Ty.words m.ty), (a, 1), (b, 1)] = none →
    Clear s c m.scr (m.scr || m.ord != .plain) .store accs (Ty.bytes m.ty) →
    (m.scr = false → ∀ kv ∈ homes, kv.1 < windowTop) →
    ∃ (t : State) (n : Counted), exec (.st h m d a b off) s = .next t ∧ Outstanding s t c .st n ∧ n.writes = [] ∧
      (m.scr = true → SameBytes s t ∧ (∀ j, j ≠ c.bi → t.block j = s.block j) ∧
        ∀ o, ((t.block c.bi).scrByte o).1 = (lastOf stored o).getD (c.b.scrByte o).1) ∧
      (m.scr = false → t.blocks = s.blocks ∧
        (∀ k, k < windowTop → ¬ DirtyIn s c.b.core k → (∀ kv ∈ homes, kv.1 ≠ k) → t.byte k = s.byte k) ∧
        (s.heapInForce = false → (∀ kv ∈ stored, (s.locOf c .store kv.1).bypass = false) →
          (∀ ln ∈ (s.core c.b.core).l1, ln.loc % 256 = 0) → ∀ kv ∈ homes, some (seenByte t c.b.core kv.1) = lastOf homes kv.1))

/-- What a load makes of its bytes (R308): the low byte first, `.i8` and `.i16` sign-extended, `.n8` and `.n16` zero-extended, one
word of 32 bits, two of 64, four of 128.

What a store takes from its source (R308): its low bytes, the lowest first. -/
def Obligations.AccessBytes : Prop :=
  (∀ p q x y p' q' x' y' : Byte,
    loadWords .i8 [p] = [p.signExtend 32] ∧ loadWords .n8 [p] = [p.setWidth 32] ∧
    loadWords .i16 [p, q] = [(q ++ p).signExtend 32] ∧ loadWords .n16 [p, q] = [(q ++ p).setWidth 32] ∧
    (∀ ty, ty = .i32 ∨ ty = .n32 ∨ ty = .f32 → loadWords ty [p, q, x, y] = [y ++ x ++ q ++ p]) ∧
    loadWords .b64 [p, q, x, y, p', q', x', y'] = [y ++ x ++ q ++ p, y' ++ x' ++ q' ++ p']) ∧
  (∀ (c : Ctx) (d : Operand) (l : Nat),
    c.storeVal .n8 d l = [(c.w.readAt d l 0).extractLsb' 0 8] ∧ c.storeVal .i8 d l = [(c.w.readAt d l 0).extractLsb' 0 8] ∧
    c.storeVal .n16 d l = [(c.w.readAt d l 0).extractLsb' 0 8, (c.w.readAt d l 0).extractLsb' 8 8] ∧
    c.storeVal .i16 d l = [(c.w.readAt d l 0).extractLsb' 0 8, (c.w.readAt d l 0).extractLsb' 8 8] ∧
    (∀ ty, ty = .i32 ∨ ty = .n32 ∨ ty = .f32 → c.storeVal ty d l = (List.range 4).map fun i => (c.w.readAt d l 0).extractLsb' (8 * i) 8) ∧
    c.storeVal .b64 d l = (List.range 8).map (fun i => (c.w.readAt d l (i / 4)).extractLsb' (8 * (i % 4)) 8) ∧
    c.storeVal .b128 d l = (List.range 16).map fun i => (c.w.readAt d l (i / 4)).extractLsb' (8 * (i % 4)) 8)

/-- LD and ST trap before they access anything with the first check that fails (R307, R310, R397): bound, alignment, range lock;
SCRATCH_BOUND names the lanes whose access ends beyond the block's allocation. -/
def Obligations.AccessTraps : Prop :=
  ∀ (s : State) (h : Hdr) (c : Ctx) (m : MemMod) (d a b : Operand) (off : Word) (k : Byte) (q : LaneMask) (v : DWord),
    s.ctx h = some c → c.w.ldc < 63 → c.w.stc < 63 →
    let accs := c.accs m.scr a b off
    let w := Ty.bytes m.ty
    (c.regCheck [(d, Ty.words m.ty)] [(a, 1), (b, 1)] = none →
      (c.boundCheck s m.scr accs w = some (k, q, v) → exec (.ld h m d a b off) s = .next (s.takeTrap c k q v)) ∧
      (c.boundCheck s m.scr accs w = none → m.scr = true ∨ m.ord ≠ .plain → alignCheck accs w = some (k, q, v) →
        exec (.ld h m d a b off) s = .next (s.takeTrap c k q v)) ∧
      (c.boundCheck s m.scr accs w = none → alignCheck accs w = none → c.lockCheck s false m.scr accs w = some (k, q, v) →
        exec (.ld h m d a b off) s = .next (s.takeTrap c k q v))) ∧
    (c.regCheck [] [(d, Ty.words m.ty), (a, 1), (b, 1)] = none →
      (c.boundCheck s m.scr accs w = some (k, q, v) → exec (.st h m d a b off) s = .next (s.takeTrap c k q v)) ∧
      (c.boundCheck s m.scr accs w = none → m.scr = true ∨ m.ord ≠ .plain → alignCheck accs w = some (k, q, v) →
        exec (.st h m d a b off) s = .next (s.takeTrap c k q v)) ∧
      (c.boundCheck s m.scr accs w = none → alignCheck accs w = none → c.lockCheck s true m.scr accs w = some (k, q, v) →
        exec (.st h m d a b off) s = .next (s.takeTrap c k q v))) ∧
    (m.scr = true → c.boundCheck s m.scr accs w = some (k, q, v) → k = 0x11 ∧ ∀ l < 32, q.getLsbD l = true ↔
      c.act.getLsbD l = true ∧ 4096 * c.b.scrUnits < (c.w.read a l + off).toNat + w) ∧
    (alignCheck accs w = some (k, q, v) → k = 0x13 ∧ ∀ l < 32, q.getLsbD l = true ↔ ∃ x ∈ accs, x.1 = l ∧ x.2 % w ≠ 0)

namespace Sys2Proof.Claims

/-- An ATOM or RED: its operation, modifiers, destination and operands. -/
def atomForm : Instr → Option (Hdr × AtomOp × MemMod × Option Operand × Operand × Operand × BitVec 12 × Operand × Operand)
  | .atomAdd h m d a b off x => some (h, .add, m, some d, a, b, off, .zero, x)
  | .atomMin h m d a b off x => some (h, .min, m, some d, a, b, off, .zero, x)
  | .atomMax h m d a b off x => some (h, .max, m, some d, a, b, off, .zero, x)
  | .atomAnd h m d a b off x => some (h, .and, m, some d, a, b, off, .zero, x)
  | .atomOr h m d a b off x => some (h, .or, m, some d, a, b, off, .zero, x)
  | .atomXor h m d a b off x => some (h, .xor, m, some d, a, b, off, .zero, x)
  | .atomExch h m d a b off x => some (h, .exch, m, some d, a, b, off, .zero, x)
  | .atomCas h m d a b off cmp x => some (h, .cas, m, some d, a, b, off, cmp, x)
  | .atomFaddF32 h m d a b off x => some (h, .faddF32, m, some d, a, b, off, .zero, x)
  | .atomFaddB2 h m d a b off x => some (h, .faddB2, m, some d, a, b, off, .zero, x)
  | .redAdd h m a b off x => some (h, .add, m, none, a, b, off, .zero, x)
  | .redMin h m a b off x => some (h, .min, m, none, a, b, off, .zero, x)
  | .redMax h m a b off x => some (h, .max, m, none, a, b, off, .zero, x)
  | .redAnd h m a b off x => some (h, .and, m, none, a, b, off, .zero, x)
  | .redOr h m a b off x => some (h, .or, m, none, a, b, off, .zero, x)
  | .redXor h m a b off x => some (h, .xor, m, none, a, b, off, .zero, x)
  | .redFaddF32 h m a b off x => some (h, .faddF32, m, none, a, b, off, .zero, x)
  | .redFaddB2 h m a b off x => some (h, .faddB2, m, none, a, b, off, .zero, x)
  | _ => none

/-- No NaN sign or saturation modifiers. -/
def noMods : FMod := ⟨false, false, false, false, false, false⟩

/-- The value an atomic leaves: the operation on the value found and the lane's operand (R312, R313). -/
def atomNew (op : AtomOp) (ty : Ty) {n : Nat} (acc v cmp : BitVec n) : BitVec n :=
  match op with
  | .add => acc + v
  | .min => if (if ty = .i32 then v.slt acc else v.ult acc) then v else acc
  | .max => if (if ty = .i32 then acc.slt v else acc.ult v) then v else acc
  | .and => acc &&& v
  | .or => acc ||| v
  | .xor => acc ^^^ v
  | .exch => v
  | .cas => if acc = cmp then v else acc
  | .faddF32 => (formatOp fp32 fone noMods fpAdd (acc.setWidth 32) (v.setWidth 32) 0).setWidth n
  | .faddB2 =>
    let half := fun i => formatOp bf16 0x3F80 noMods fpAdd (acc.extractLsb' (16 * i) 16) (v.extractLsb' (16 * i) 16) 0
    (half 1 ++ half 0).setWidth n

/-- The data operand of a lane as a number of the access's width. -/
def atomData (c : Ctx) (ty : Ty) (x : Operand) (l : Nat) : Nat :=
  if ty = .b64 then (c.w.read64 x l).toNat else (c.w.read x l).toNat

/-- Some lanes in order on some bytes: each finds the value at its keys, and leaves the new one there (R128).  The bytes after
all of them, and the value each lane found. -/
def atomRun (op : AtomOp) (ty : Ty) : List (Nat × List Nat × Nat × Nat) → (Nat → Byte) → (Nat → Byte) × List (Nat × Nat)
  | [], m => (m, [])
  | (l, ks, v, cmp) :: t, m =>
    let n := 8 * Ty.bytes ty
    let old := (ks.map m).foldr (fun b acc => b.toNat + 256 * acc) 0
    let new := (atomNew op ty (BitVec.ofNat n old) (.ofNat n v) (.ofNat n cmp)).toNat
    let r := atomRun op ty t fun k => (lastOf (ks.zip (lowBytes (Ty.bytes ty) new)) k).getD (m k)
    (r.1, (l, old) :: r.2)

end Sys2Proof.Claims

/-- The ten forms of ATOM and the eight of RED, with their checks passed, on plain memory that nothing caches (R125, R128, R312,
R313): the active lanes act in ascending order on the bytes they name, each finding what the one before it left; an ATOM is
counted on LDC and will write what each lane found, a RED is counted on STC; no other byte changes.

That the access happens at issue is the model's choice (log 4). -/
def Obligations.Atomics : Prop :=
  ∀ (s : State) (i : Instr) (h : Hdr) (c : Ctx) (op : AtomOp) (m : MemMod) (d : Option Operand) (a b : Operand) (off : BitVec 12)
    (cmp x : Operand), atomForm i = some (h, op, m, d, a, b, off, cmp, x) → s.ctx h = some c → c.act ≠ 0 → c.bi < s.blocks.length →
    m.ty = .i32 ∨ m.ty = .n32 ∨ m.ty = .b64 ∨ m.ty = .f32 ∨ m.ty = .b2 → (op = .faddF32 ∨ op = .faddB2 → m.ty ≠ .b64) →
    let ctr := if d.isSome then Ctr.ld else Ctr.st
    let w := Ty.bytes m.ty
    let n := Ty.words m.ty
    let accs := c.accs m.scr a b (off.signExtend 32)
    let lane := fun (ks : Nat → List Nat) => accs.map fun y =>
      (y.1, ks y.2, atomData c m.ty x y.1, if op = .cas then atomData c m.ty cmp y.1 else 0)
    c.w.counter ctr < 63 →
    c.regCheck (d.toList.map fun o => (o, n)) ([(a, 1), (b, 1), (x, n)] ++ (if op = .cas then [(cmp, n)] else [])) = none →
    Clear s c m.scr true .atomic accs w →
    (m.scr = false → ∀ y ∈ accs, ∀ va ∈ span y.2 w, (s.locOf c .atomic va).key < windowTop) →
    ∃ (t : State) (k : Counted) (old : Nat → Nat) (bad : Nat → Bool), exec i s = .next t ∧ Outstanding s t c ctr k ∧
      k.writes = kept c (some a) (if m.scr then none else some b) (match d with
        | some o => c.w.pending c.act o fun l => ((List.range n).map fun j => BitVec.ofNat 32 (old l / 2 ^ (32 * j)), bad l)
        | none => []) ∧
      (m.scr = true → c.b.scrPoison = [] → SameBytes s t ∧
        let r := atomRun op m.ty (lane fun o => span o w) fun o => (c.b.scrByte o).1
        (∀ o, ((t.block c.bi).scrByte o).1 = r.1 o) ∧ (∀ j, j ≠ c.bi → t.block j = s.block j) ∧ ∀ y ∈ r.2, old y.1 = y.2 ∧ bad y.1 = false) ∧
      (m.scr = false → (c.b.svc = true → ∀ k, (s.core k).ferry = []) → (s.core c.b.core).l1 = [] → s.poison = [] → s.hbmErr = [] →
        s.cmp.stored = [] → s.cmp.en = false → s.heapInForce = false →
        let r := atomRun op m.ty (lane fun va => (span va w).map fun u => (s.locOf c .atomic u).key) s.byte
        (∀ u, u < windowTop → t.byte u = r.1 u) ∧ t.blocks = s.blocks ∧ ∀ y ∈ r.2, old y.1 = y.2 ∧ bad y.1 = false)

/-- FENCE and FENCER with an active lane (R48, R115, R123, R124): a release at cluster scope or wider sends every dirty byte of the
core's L1 home and leaves none dirty; an acquire leaves no sector valid; below cluster scope nothing but the slot moves; FENCER
leaves the L1 of every core in its scope empty.

DISCARD and PREF (R131, R315, R316): DISCARD with its checks passed is counted on STC and makes every byte of its sectors 0 at
its home, and no other; PREF completes whatever its address and changes no register; where its addresses have cached translations, no byte
changes but where an evicted line's dirty bytes go home.

That the accesses happen at issue is the model's choice (log 4). -/
def Obligations.FencesAndHints : Prop :=
  (∀ (s : State) (h : Hdr) (c : Ctx) (m : MemMod), s.ctx h = some c → c.act ≠ 0 →
    (∃ t, exec (.fence h m) s = .next t ∧ StepsOn s t c ∧ SameWave c (t.wave c.wi) ∧ SameHomes s t c.b.core ∧
      t.waves = s.waves.set c.wi (t.wave c.wi) ∧
      (m.scope = .wave ∨ m.scope = .block → JustAdvances s t c) ∧
      (m.scope ≠ .wave → m.scope ≠ .block → m.ord = .rel ∨ m.ord = .ar →
        (∀ ln ∈ (t.core c.b.core).l1, ln.dirty = 0) ∧
        (s.heapInForce = false → (s.core c.b.core).l1.Pairwise (fun p q => p.loc ≠ q.loc) →
          (∀ ln ∈ (s.core c.b.core).l1, ln.loc % 256 = 0 ∧ ln.loc < windowTop) →
          ∀ ln ∈ (s.core c.b.core).l1, ∀ i < 256, ln.isDirty i = true → t.byte (ln.loc + i) = ln.byte i)) ∧
      (m.scope ≠ .wave → m.scope ≠ .block → m.ord = .acq ∨ m.ord = .ar → ∀ ln ∈ (t.core c.b.core).l1, ln.valid = 0)) ∧
    (∃ t, exec (.fencer h m) s = .next t ∧ StepsOn s t c ∧ SameWave c (t.wave c.wi) ∧ t.waves = s.waves.set c.wi (t.wave c.wi) ∧
      ((m.scope = .wave ∨ m.scope = .block → (t.core c.b.core).l1 = []) ∧
       (m.scope = .cluster → ∀ k, k / 4 = c.b.core / 4 → (t.core k).l1 = []) ∧
       (m.scope = .device ∨ m.scope = .system → ∀ k < 160, (t.core k).l1 = [])))) ∧
  (∀ (s : State) (h : Hdr) (c : Ctx) (l2 : Bool) (d a b : Operand) (off : Word), s.ctx h = some c →
    let accs := c.accs false a b off
    let secs := accs.flatMap fun x => (discardVas x.2 (c.w.read d x.1).toNat).map fun va => (x.1, va)
    let own := secs.map fun x => (s.locOf c .store x.2).key / 64
    (c.act ≠ 0 → c.w.stc < 63 → c.regCheck [] [(d, 1), (a, 1), (b, 1)] = none → s.heapInForce = false →
      (∀ x ∈ accs, s.rangeOk x.2 (c.w.read d x.1).toNat = true ∧ x.2 % 64 = 0 ∧ (c.w.read d x.1).toNat % 64 = 0) →
      c.lockCheck s true false secs 64 = none → c.cancelCheck secs 64 = none →
      s.misses c.unit c.space .store (walkedVas secs 64) = [] → c.landingCheck s true secs 64 = none →
      c.specCheck secs 64 = none → ∃ t n, exec (.discard h d a b off) s = .next t ∧ Outstanding s t c .st n ∧ n.writes = [] ∧
        t.blocks = s.blocks ∧ ∀ k, k < windowTop → t.byte k = if k / 64 ∈ own then 0 else s.byte k) ∧
    (c.regCheck [] [(a, 1), (b, 1)] = none → ∃ t, exec (.pref h l2 a b off) s = .next t ∧ StepsOn s t c ∧
      SameWave c (t.wave c.wi) ∧ t.blocks = s.blocks ∧ (∀ j, j ≠ c.wi → t.wave j = s.wave j) ∧
      ((∀ x ∈ accs, (s.lookup c.unit c.space .load x.2).isSome = true) → SameHomes s t c.b.core)))

/-! ## Engine instructions (R135-R147, R317-R321, R337, R341-R361) -/

namespace Sys2Proof.Claims

/-- An engine can take an operation of a kind with some ranges and a tag (R136, R138, R143): room in its lock tables and in flight,
the tag not pending, no range in conflict. -/
def EngineReady (s : State) (c : Ctx) (kind : EngKind) (rs : List EngRange) (tag : Option Nat) : Prop :=
  s.locksFit (realRanges rs) = true ∧ s.engineFree c.b.core c.bi kind = true ∧ (∀ g, tag = some g → c.b.tpend.getLsbD g = false) ∧
    c.rangeCheck s rs = none ∧ c.bi < s.blocks.length ∧ c.act ≠ 0

/-- One bit of a tag register. -/
def tagBit (g : Nat) : DWord := 1#64 <<< g

/-- The instruction has entered its engine (R136, R137, R142, R144, R223): one operation more, running, with what it captured; each of its
ranges that is not empty is registered, one of a scratchpad by its physical offsets; its tag is pending and not ready; it is counted until the operation is done; its slot
moves on; no byte of storage has changed. -/
def InEngine (s t : State) (c : Ctx) (i : Instr) (ctr : Ctr) (tag : Option Nat) (vals : List DWord) (ents : List (BitVec 256))
    (rs : List EngRange) : Prop :=
  (∃ o : EngOp, t.ops = s.ops ++ [o] ∧ o.life = .running ∧ o.instr = i ∧ o.block = c.bi ∧ o.wave = c.wi ∧ o.core = c.b.core ∧
    o.tag = tag ∧ o.vals = vals ∧ o.ents = ents) ∧
  (∀ r ∈ realRanges rs,
    let lo := if r.scr then 4096 * (s.block r.owner).scrBase + r.base else r.base
    some ⟨r.dst, spaceOf r.scr r.base, r.owner, tag.getD 0, c.g.vm, c.g.asid, lo / 16, (lo + r.size - 1) / 16, s.ops.length⟩
      ∈ (t.core r.core).locks) ∧
  (∀ g, tag = some g → (t.block c.bi).tpend = c.b.tpend ||| tagBit g ∧ (t.block c.bi).tags = c.b.tags &&& ~~~ tagBit g ∧
    (t.block c.bi).terr = c.b.terr &&& ~~~ tagBit g) ∧
  (t.wave c.wi).counted = c.w.counted ++ [(c.w.serial, { ctr := ctr, lanes := c.act, op := some s.ops.length })] ∧
  (t.wave c.wi).counter ctr = c.w.counter ctr + 1 ∧ StepsOn s t c ∧ SameRegs c (t.wave c.wi) ∧ SameRest c.w (t.wave c.wi) ∧ SameBytes s t ∧
  ∀ j, j ≠ c.bi → t.block j = s.block j

/-- Addresses in their space, a scratchpad range within the allocation (R10, R25); an empty range lies anywhere. -/
def RangeOk (s : State) (c : Ctx) (scr : Bool) (base len : Nat) : Prop :=
  if scr then len = 0 ∨ base + len ≤ 4096 * c.b.scrUnits else s.rangeOk base len = true

/-- An address operand: a scratchpad offset of 32 bits or a VA of 64. -/
def addrOf (c : Ctx) (scr : Bool) (o : Operand) : Nat := if scr then (c.w.read o 0).toNat else (c.w.read64 o 0).toNat

end Sys2Proof.Claims

/-- COPY, GATHER and COLL with their checks passed enter an engine with the addresses and lengths of their operands, the source and
destination ranges registered; a COPY of no bytes makes its tag ready at once; a misaligned COPY raises ALIGNMENT, one whose tag
is pending TAG_BUSY, and a COPY or GATHER from a role that may not issue it ROLE_VIOLATION (R318, R320, R321, R138, R141, R160).

COPYM (R319): in a block with a gang member resident on every core of its mask, its checks passed, it enters an engine with a
destination range in each receiver's scratchpad; with no such member on some core of the mask it raises COPYM_TARGET. -/
def Obligations.CopyEngineIssue : Prop :=
  (∀ (s : State) (h : Hdr) (c : Ctx) (ds ss : Bool) (d a b : Operand) (tag : BitVec 6) (row : BitVec 12) (count : BitVec 14) (ty : Ty)
    (op : CollOp) (group : BitVec 6), s.ctx h = some c → c.w.cpc < 63 →
    let dst := addrOf c ds d
    let src := addrOf c ss a
    let n := (c.w.read b 0).toNat
    let rs := [(⟨c.b.core, c.bi, false, ss, src, n⟩ : EngRange), ⟨c.b.core, c.bi, true, ds, dst, n⟩]
    (c.regCheck [] [(d, if ds then 1 else 2), (a, if ss then 1 else 2), (b, 1)] = none → c.roleCheck [1, 3] = none →
      (EngineReady s c .copy rs (some tag.toNat) → RangeOk s c ds dst n → RangeOk s c ss src n →
        dst % 16 = 0 → src % 16 = 0 → n % 16 = 0 → n ≠ 0 → ∃ t, exec (.copy h ds ss d a b tag) s = .next t ∧
        InEngine s t c (.copy h ds ss d a b tag) .cp (some tag.toNat) [.ofNat 64 dst, .ofNat 64 src, .ofNat 64 n] [] rs) ∧
      (EngineReady s c .copy rs (some tag.toNat) → dst % 16 = 0 → src % 16 = 0 → n = 0 →
        ∃ t, exec (.copy h ds ss d a b tag) s = .next t ∧ t.ops = s.ops ∧ StepsOn s t c ∧
        (t.block c.bi).tags = c.b.tags ||| tagBit tag.toNat ∧ (t.block c.bi).tpend = c.b.tpend &&& ~~~ tagBit tag.toNat) ∧
      (EngineReady s c .copy rs (some tag.toNat) → RangeOk s c ds dst n → RangeOk s c ss src n → dst % 16 ≠ 0 →
        exec (.copy h ds ss d a b tag) s = .next (s.takeTrap c 0x13 c.act (.ofNat 64 dst))) ∧
      (c.act ≠ 0 → s.locksFit (realRanges rs) = true → s.engineFree c.b.core c.bi .copy = true →
        c.b.tpend.getLsbD tag.toNat = true → exec (.copy h ds ss d a b tag) s = .next (s.takeTrap c 0x15 c.act 0))) ∧
    (c.act ≠ 0 → c.roleCheck [1, 3] ≠ none →
      (c.regCheck [] [(d, if ds then 1 else 2), (a, if ss then 1 else 2), (b, 1)] = none →
        exec (.copy h ds ss d a b tag) s = .next (s.takeTrap c 0x08 c.act 0)) ∧
      (c.regCheck [] [(d, 1), (a, 2), (b, if ss then 1 else 2)] = none →
        exec (.gather h ss d a b tag row count) s = .next (s.takeTrap c 0x08 c.act 0))) ∧
    (c.regCheck [] [(d, 1), (a, 2), (b, if ss then 1 else 2)] = none → c.roleCheck [1, 3] = none →
      let out := (c.w.read d 0).toNat
      let base := (c.w.read64 a 0).toNat
      let list := addrOf c ss b
      let rb := 16 * (row.toNat + 1)
      let rs := [(⟨c.b.core, c.bi, false, ss, list, 4 * count.toNat⟩ : EngRange), ⟨c.b.core, c.bi, true, true, out, count.toNat * rb⟩]
      EngineReady s c .copy rs (some tag.toNat) → RangeOk s c ss list (4 * count.toNat) → RangeOk s c true out (count.toNat * rb) →
        base % 16 = 0 → list % 4 = 0 → count ≠ 0 → ∃ t, exec (.gather h ss d a b tag row count) s = .next t ∧
        InEngine s t c (.gather h ss d a b tag row count) .cp (some tag.toNat)
          [.ofNat 64 out, .ofNat 64 base, .ofNat 64 list, .ofNat 64 rb, .ofNat 64 count.toNat] [] rs) ∧
    (c.regCheck [] [(d, if ds then 1 else 2), (a, if ss then 1 else 2), (b, 1)] = none →
      let lock := (n * collBytes ty + 15) / 16 * 16
      let rs := [(⟨c.b.core, c.bi, false, ss, src, lock⟩ : EngRange), ⟨c.b.core, c.bi, true, ds, dst, lock⟩]
      EngineReady s c .coll rs (some tag.toNat) → RangeOk s c ds dst lock → RangeOk s c ss src lock → dst % 16 = 0 → src % 16 = 0 →
        (s.collGroup group.toNat).1.getLsbD 63 = true → (s.collGroup group.toNat).1.getLsbD (48 + dieOf c.b.core) = true →
        ∃ t, exec (.coll h ty op ss ds d a b tag group) s = .next t ∧
        InEngine s t c (.coll h ty op ss ds d a b tag group) .cp (some tag.toNat) [.ofNat 64 dst, .ofNat 64 src, .ofNat 64 n] [] rs)) ∧
  (∀ (s : State) (h : Hdr) (c : Ctx) (d a b : Operand) (tag : BitVec 6) (mask bar : BitVec 4) (recv : List (Nat × Nat)),
    s.ctx h = some c → c.w.cpc < 63 → c.regCheck [] [(d, 1), (a, 2), (b, 1)] = none → c.roleCheck [1, 3] = none →
    let dst := (c.w.read d 0).toNat
    let src := (c.w.read64 a 0).toNat
    let n := (c.w.read b 0).toNat
    let cores := maskCores c.b.core mask
    let rs := (⟨c.b.core, c.bi, false, false, src, n⟩ : EngRange) :: recv.map fun r => ⟨r.1, r.2, true, true, dst, n⟩
    (c.b.spawned = false → recv.map Prod.fst = cores → (∀ r ∈ recv, s.gangBlockOn c.b r.1 = some r.2) →
      EngineReady s c .copy rs (some tag.toNat) → s.rangeOk src n = true → (∀ r ∈ recv, dst + n ≤ 4096 * (s.block r.2).scrUnits) →
      dst % 16 = 0 → src % 16 = 0 → n % 16 = 0 → n ≠ 0 → (∀ r ∈ recv, ((s.block r.2).bb.getD bar.toNat {}).expect ≠ 0) →
      ∃ t, exec (.copym h d a b tag mask bar) s = .next t ∧
        InEngine s t c (.copym h d a b tag mask bar) .cp (some tag.toNat) [.ofNat 64 dst, .ofNat 64 src, .ofNat 64 n] [] rs ∧
        ∃ o, t.ops = s.ops ++ [o] ∧ o.recv = recv) ∧
    (c.b.spawned = false → (∃ k ∈ cores, s.gangBlockOn c.b k = none) → c.b.tpend.getLsbD tag.toNat = false → c.act ≠ 0 →
      s.engineFree c.b.core c.bi .copy = true → (∀ k, (s.core k).locks = []) →
      exec (.copym h d a b tag mask bar) s = .next (s.takeTrap c 0x19 c.act 0)))

/-- TDEF and TQRY (R242, R348, R349): TDEF of a valid entry, its K registers in order from the low word, makes it entry Tn and
changes no other; an invalid one raises TENSOR_INVALID; TQRY writes the eight words of entry Tn to its K registers once. -/
def Obligations.TensorEntries : Prop :=
  ∀ (s : State) (h : Hdr) (c : Ctx) (n : Fin 64) (k : Fin 64) (a : Operand) (e : BitVec 256), s.ctx h = some c →
    (c.regCheck [] [(a, 8)] = none → c.act ≠ 0 → c.bi < s.blocks.length →
      (∀ j < 8, e.extractLsb' (32 * j) 32 = c.w.readAt a 0 j) →
      (tensValid e = true → ∃ t, exec (.tdef h (.t n) a) s = .next t ∧ (t.block c.bi).tens' n.val = e ∧
        (∀ q, q ≠ n.val → (t.block c.bi).tens' q = c.b.tens' q) ∧ (∀ j, j ≠ c.bi → t.block j = s.block j) ∧
        JustAdvances s { t with blocks := s.blocks } c) ∧
      (tensValid e = false → exec (.tdef h (.t n) a) s = .next (s.takeTrap c 0x22 c.act 0))) ∧
    (c.regCheck [(.k k, 8)] [] = none → k.val + 8 ≤ 64 → ∃ t, exec (.tqry h (.k k) (.t n)) s = .next t ∧ OnlyWave s t c.wi ∧
      StepsOn s t c ∧ (∀ j < 8, (t.wave c.wi).reg (kKey (k.val + j)) = (c.b.tens' n.val).extractLsb' (32 * j) 32) ∧
      ∀ q, (∀ j < 8, q ≠ kKey (k.val + j)) → (t.wave c.wi).reg q = c.w.reg q)

namespace Sys2Proof.Claims

/-- What every tensor instruction of a cluster's matrix engine asks (R341): its role, a converged wave, defined entries, their extents
in bounds, the engine ready, TLC below 63. -/
def MatrixReady (s : State) (c : Ctx) (kind : EngKind) (roles : List (Fin 4)) (es : List Operand) (rs : List EngRange)
    (tag : Option Nat) : Prop :=
  c.w.tlc < 63 ∧ c.roleCheck roles = none ∧ c.converged = true ∧ (∀ o ∈ es, (c.tens o).v = true) ∧
    (∀ k ∈ c.extentChecks s (es.map c.tens), k = none) ∧ EngineReady s c kind rs tag

/-- Rows and columns of a product: D is A times B, or A times B transposed. -/
def ProductShape (bt : Bool) (td ta tb : Tens) : Prop :=
  td.rows = ta.rows ∧ if bt then tb.rows = td.cols ∧ tb.cols = ta.cols else tb.rows = ta.cols ∧ tb.cols = td.cols

/-- Every entry of the block but one is as before. -/
def OnlyEntry (t : State) (c : Ctx) (d : Operand) (e : BitVec 256) : Prop :=
  (t.block c.bi).tens' (tNum d) = e ∧ ∀ q, q ≠ tNum d → (t.block c.bi).tens' q = c.b.tens' q

end Sys2Proof.Claims

/-- The tensor instructions of the matrix engine (R341-R355): with what R341 asks, the formats, domains, bins and shapes of their
entries as their rules give them, each enters the engine; those that change an entry at issue have changed it: SIGMA and SFIX
of D by TMMS and a frequency TACCLD, SFIX cleared by TZERO, DOM and SIGMA by a frequency TACCST. -/
def Obligations.MatrixIssue : Prop :=
  ∀ (s : State) (h : Hdr) (c : Ctx) (bt : Bool) (act : Act) (d a b x : Operand) (tag : BitVec 6), s.ctx h = some c →
    let td := c.tens d
    let ta := c.tens a
    let tb := c.tens b
    let src := c.tensRange false ta ++ c.tensRange false tb
    (MatrixReady s c .matLoad [2] [d, a, b] src (some tag.toNat) → td.freq = false → ta.freq = false → tb.freq = false →
      td.inAcc = true → ta.inMem = true → tb.inMem = true → ProductShape bt td ta tb →
      (tmmaFormats ta.fmt tb.fmt td.fmt = true → ∃ t, exec (.tmma h bt d a b tag) s = .next t ∧
        InEngine s t c (.tmma h bt d a b tag) .tl (some tag.toNat) [] [c.ent d, c.ent a, c.ent b] src ∧
        (t.block c.bi).tens = c.b.tens) ∧
      (tmmdFormats ta.fmt tb.fmt td.fmt = true → ∃ t, exec (.tmmd h bt d a b tag) s = .next t ∧
        InEngine s t c (.tmmd h bt d a b tag) .tl (some tag.toNat) [] [c.ent d, c.ent a, c.ent b] src ∧
        (t.block c.bi).tens = c.b.tens)) ∧
    (let ptr := fun l => (c.w.read64 b l).toNat
      let tw := c.tens x
      let ps := (((lanesOf c.act).map ptr).filter fun p => p != 0).eraseDups
      let rs := c.tensRange false ta ++ ps.map fun p => ⟨c.b.core, c.bi, false, false, p, tw.extent⟩
      c.regCheck [] [(b, 2)] = none → MatrixReady s c .matLoad [2] [d, a] rs (some tag.toNat) → tw.v = true →
      td.freq = false → ta.freq = false → tw.freq = false → td.inAcc = true → ta.inMem = true → tw.space = 0 →
      tmmaFormats ta.fmt tw.fmt td.fmt = true ∨ tmmdFormats ta.fmt tw.fmt td.fmt = true → 32 ≤ ta.rows → 32 ≤ td.rows →
      tw.rows = ta.cols → tw.cols = td.cols → (∀ p ∈ ps, s.rangeOk p tw.extent = true ∧ p % 16 = 0) →
      ∃ t, exec (.tvmm h d a b tag x) s = .next t ∧ InEngine s t c (.tvmm h d a b tag x) .tl (some tag.toNat)
        (c.act.setWidth 64 :: (List.range 32).map fun l => .ofNat 64 (ptr l)) [c.ent d, c.ent a, c.ent x] rs) ∧
    (MatrixReady s c .matLoad [2] [d, a, b] src (some tag.toNat) → td.freq = true → ta.freq = true → tb.freq = true →
      td.inAcc = true → ta.inMem = true → tb.inMem = true → ta.cols = tb.cols → td.rows = tb.rows →
      td.cols = ta.rows * (ta.b / 2) → ta.blk = tb.blk → ta.blk = td.blk → sigmaOk (ta.sigma + tb.sigma) = true →
      td.sfix = false ∨ td.sigma = ta.sigma + tb.sigma → ∃ t, exec (.tmms h d a b tag) s = .next t ∧
      InEngine s t c (.tmms h d a b tag) .tl (some tag.toNat) [] [c.ent d, c.ent a, c.ent b] src ∧
      OnlyEntry t c d (setSfix (setSigma (c.ent d) (ta.sigma + tb.sigma)) true)) ∧
    (MatrixReady s c .matLoad [2] [d] [] none → td.inAcc = true → ∃ t, exec (.tzero h d) s = .next t ∧
      InEngine s t c (.tzero h d) .tl none [] [c.ent d] [] ∧ OnlyEntry t c d (setSfix (c.ent d) false)) ∧
    (MatrixReady s c .matLoad [2, 3] [d, a] (c.tensRange false ta) (some tag.toNat) → ta.freq = td.freq → td.inAcc = true →
      ta.inMem = true → taccldFormats ta.freq ta.fmt td.fmt = true → td.rows = ta.rows → td.cols = ta.cols →
      ta.freq = false ∨ ta.blk = td.blk → ∃ t, exec (.taccld h d a tag) s = .next t ∧
      InEngine s t c (.taccld h d a tag) .tl (some tag.toNat) [] [c.ent d, c.ent a] (c.tensRange false ta) ∧
      OnlyEntry t c d (if ta.freq then setSfix (setSigma (c.ent d) ta.sigma) true else c.ent d)) ∧
    (c.regCheck [] [(x, 1)] = none →
      MatrixReady s c .matStore [3] ([d, a] ++ if b = .zero then [] else [b]) (c.tensRange true td) (some tag.toNat) →
      td.inMem = true → ta.inAcc = true → td.rows = ta.rows → td.cols = ta.cols → td.freq = ta.freq →
      (if ta.freq then td.fmt = 6 ∧ act = .none ∧ c.w.read x 0 = 0x3F800000 ∧ td.blk = ta.blk ∧ b = .zero
        else narrowFmt td.fmt = true ∧ (ta.fmt = 0 ∨ ta.fmt = 10) ∧
          (b = .zero ∨ (tb.freq = false ∧ tb.inMem = true ∧ tb.fmt ≤ 2 ∧ tb.cols = td.cols))) →
      ∃ t, exec (.taccst h act d a b tag x) s = .next t ∧
      InEngine s t c (.taccst h act d a b tag x) .tl (some tag.toNat) [(c.w.read x 0).setWidth 64]
        [c.ent d, c.ent a, if b = .zero then 0 else c.ent b] (c.tensRange true td) ∧
      OnlyEntry t c d (if ta.freq then setSigma (setDom (c.ent d) true) ta.sigma else c.ent d))

/-- The transform instructions (R356-R361): with defined entries of the formats, domains, bins and shapes of their rules, in bounds,
and the engine ready, TFFT, TIFT, XCHAIN and XFM enter it; TFFT leaves entry D in the frequency domain with SIGMA = BETA + log2 b,
TIFT in the time domain with BETA = SIGMA - log2 b, XCHAIN in the frequency domain with SIGMA of its source. -/
def Obligations.TransformIssue : Prop :=
  ∀ (s : State) (h : Hdr) (c : Ctx) (tr : Bool) (act : Act) (d a : Operand) (tag : BitVec 6), s.ctx h = some c →
    let td := c.tens d
    let ti := c.tens a
    let rs := c.tensRange false ti ++ c.tensRange true td
    td.v = true → ti.v = true → td.inMem = true → (∀ k ∈ c.extentChecks s [td, ti], k = none) →
    (c.w.tlc < 63 → EngineReady s c .ctu rs (some tag.toNat) →
      (ti.inMem = true → ti.freq = false → ti.fmt ≤ 4 → td.fmt = 6 → td.rows = ti.rows → ti.cols % ti.b = 0 → 2 * td.cols = ti.cols →
        td.blk = ti.blk → sigmaOk (ti.beta + ti.logb) = true → ∃ t, exec (.tfft h d a tag) s = .next t ∧
        InEngine s t c (.tfft h d a tag) .tl (some tag.toNat) [] [c.ent d, c.ent a] rs ∧
        OnlyEntry t c d (setSigma (setDom (c.ent d) true) (ti.beta + ti.logb))) ∧
      (ti.freq = true → td.fmt ≤ 2 → td.rows = ti.rows → td.cols = 2 * ti.cols → td.blk = ti.blk →
        sigmaOk (ti.sigma - ti.logb) = true → ∃ t, exec (.tift h d a tag) s = .next t ∧
        InEngine s t c (.tift h d a tag) .tl (some tag.toNat) [] [c.ent d, c.ent a] rs ∧
        OnlyEntry t c d (setBeta (setDom (c.ent d) false) (ti.sigma - ti.logb))) ∧
      (ti.inMem = true → ti.freq = true → td.freq = true → td.fmt = 6 → td.rows = ti.rows → td.cols = ti.cols → td.blk = ti.blk →
        ∃ t, exec (.xchain h act d a tag) s = .next t ∧
        InEngine s t c (.xchain h act d a tag) .tl (some tag.toNat) [] [c.ent d, c.ent a] rs ∧
        OnlyEntry t c d (setSigma (setDom (c.ent d) true) ti.sigma))) ∧
    (c.w.cpc < 63 → EngineReady s c (.pipe (c.w.part.val / 4)) rs (some tag.toNat) → ti.inMem = true → ti.freq = false → td.freq = false →
      narrowFmt ti.fmt = true → narrowFmt td.fmt = true →
      (if tr then td.rows = ti.cols ∧ td.cols = ti.rows else td.rows = ti.rows ∧ td.cols = ti.cols) →
      ∃ t, exec (.xfm h tr d a tag) s = .next t ∧
      InEngine s t c (.xfm h tr d a tag) .cp (some tag.toNat) [] [c.ent d, c.ent a] rs ∧ (t.block c.bi).tens = c.b.tens)

/-- TRACE, MATEV and TABLD (R337, R361, R375): with a core that caches nothing and no poison, a descriptor or code-length table that
its rule admits, and the engine ready, each enters its engine with the words or bytes it read; TABLD outside VM 0 raises PRIVILEGED
(what its slot has registered while it waited is released first).

That its core caches nothing and no sector is poisoned is a premise of this statement alone. -/
def Obligations.RayAndTableIssue : Prop :=
  ∀ (s : State) (h : Hdr) (c : Ctx) (a : Operand) (tag : BitVec 6) (gen : BitVec 4), s.ctx h = some c → c.w.cpc < 63 →
    c.regCheck [] [(a, 2)] = none →
    let va := (c.w.read64 a 0).toNat
    let key := fun i => (s.locOf c .load (va + i)).key
    (s.core c.b.core).l1 = [] → s.poison = [] → s.hbmErr = [] → s.cmp.stored = [] →
    (let ws := (List.range 8).map fun j => BitVec.ofNat 64 (leNat ((List.range 8).map fun i => s.byte (key (8 * j + i))))
      let len := 64 * bits (ws.getD 4 0) 31 0
      let rs := [(⟨c.b.core, c.bi, false, false, bits (ws.getD 2 0) 55 0, len⟩ : EngRange),
        ⟨c.b.core, c.bi, true, false, bits (ws.getD 3 0) 55 0, len⟩]
      Clear s c false false .load ((lanesOf c.act).map fun l => (l, va)) 64 → (∀ i < 64, key i < windowTop) → va % 64 = 0 →
      rayDescBad ws = false → len ≠ 0 → s.rangeOk (bits (ws.getD 2 0) 55 0) len = true →
      s.rangeOk (bits (ws.getD 3 0) 55 0) len = true →
      (EngineReady s c .ray rs (some tag.toNat) → ∃ t, exec (.trace h a tag) s = .next t ∧
        InEngine s t c (.trace h a tag) .cp (some tag.toNat) ws [] rs) ∧
      (EngineReady s c .mat rs (some tag.toNat) → ∃ t, exec (.matev h a tag) s = .next t ∧
        InEngine s t c (.matev h a tag) .cp (some tag.toNat) ws [] rs)) ∧
    (let bs := (List.range 256).map fun i => s.byte (key i)
      let rs := [(⟨c.b.core, c.bi, false, false, va, 256⟩ : EngRange)]
      Clear s c false false .load ((lanesOf c.act).map fun l => (l, va)) 256 → (∀ i < 256, key i < windowTop) → va % 64 = 0 →
      c.g.vm = 0 → tableOk (bs.map BitVec.toNat) = true → EngineReady s c .ctu rs (some tag.toNat) →
      ∃ t, exec (.tabld h a tag gen) s = .next t ∧
      InEngine s t c (.tabld h a tag gen) .cp (some tag.toNat) (bs.map fun b => b.setWidth 64) [] rs) ∧
    (c.g.vm ≠ 0 → c.act ≠ 0 →
      exec (.tabld h a tag gen) s = .next ((s.dropLocks (heldRange c.wi c.isB)).takeTrap c 0x0A c.act 0))

/-! ## Queues, spawning, the Landing, textures, vertices (R73-R98, R149-R151, R163-R166, R322-R335, R338) -/

namespace Sys2Proof.Claims

/-- The instruction is counted on `ctr` as outstanding with its registers still to be written, and its slot moves on; it reads the
fields `a` and `b`. -/
def Counts (s t : State) (c : Ctx) (ctr : Ctr) (a b : Option Operand) (ws : List PendWrite) : Prop :=
  ∃ n, Outstanding s t c ctr n ∧ n.writes = kept c a b ws

/-- Lane `l` is the only active one. -/
def OnlyLane (c : Ctx) (l : Nat) : Prop := l < 32 ∧ c.act = 1#32 <<< l

/-- A status of 0 when something was done; in a flag 1 when it was (R323, R324, R328). -/
def doneWord (d : Operand) (st : Nat) : Word :=
  match d with
  | .f _ => if st = 0 then 1 else 0
  | _ => .ofNat 32 st

end Sys2Proof.Claims

namespace Sys2Proof.Claims

/-- The payload words of a lane of a SPAWN. -/
def payOf (c : Ctx) (b : Operand) (l : Nat) : List Word := (List.range 4).map fun j => c.w.readAt b l j

/-- The berth numbered `i` of a core. -/
def berthAt (s : State) (core i : Nat) : Option Berth := ((s.core core).berths.find? fun x => x.1 == i).map Prod.snd

end Sys2Proof.Claims

/-- QSTAT, QENQ and QDEQ (R149, R150, R322, R323).  QSTAT gives COMMIT - HEAD, or ones for an invalid queue.  A lane's QENQ on an
invalid queue or one of another record size has status 2, on a full one 1, both without effect; otherwise 0, which waits until the
record is written, and with its slot translated the record of its registers is reserved at TAIL, which advances.  A lane's QDEQ alike has 2, 1 on an empty one, or
0 with the record at HEAD, which advances.

SPAWN by one lane (R163, R164, R324): it joins its grid's open berth of its entry on its core, the last of its lanes, and a
berth of 32 lanes sails; with no such berth it opens the lowest free one; with none free its status is 1 and nothing changes; an
entry that the grid's launch record does not list raises BAD_SPAWN.

That the record of a QDEQ is read at issue is the model's choice (log 4). -/
def Obligations.QueueAndSpawn : Prop :=
  (∀ (s : State) (h : Hdr) (c : Ctx) (rs : BitVec 2) (d b vr : Operand) (l : Nat), s.ctx h = some c → OnlyLane c l →
    c.w.ldc < 63 →
    let q := (c.w.read b 0).toNat
    let x := s.queue c.g.vm q
    let n := 2 * 2 ^ rs.toNat
    (c.regCheck [(d, 1)] [(b, 1)] = none → ∃ t, exec (.qstat h d b) s = .next t ∧ Counts s t c .ld none (some b) (c.w.pending c.act d fun _ =>
      ([if 256 ≤ q ∨ x.valid = false then 0xFFFFFFFF else x.commit - x.head], false)) ∧ t.queues = s.queues ∧ SameBytes s t) ∧
    (c.regCheck [(d, 1)] [(b, 1), (vr, n)] = none →
      let status := fun t (v : Nat) => Counts s t c .ld none (some b) (c.w.pending c.act d fun _ => ([doneWord d v], false))
      (256 ≤ q ∨ x.valid = false ∨ x.recsz ≠ rs.toNat →
        ∃ t, exec (.qenq h rs d b vr) s = .next t ∧ status t 2 ∧ t.queues = s.queues ∧ SameBytes s t) ∧
      (q < 256 → x.valid = true → x.recsz = rs.toNat → 2 ^ x.log2n ≤ (x.tail - x.head).toNat →
        ∃ t, exec (.qenq h rs d b vr) s = .next t ∧ status t 1 ∧ t.queues = s.queues ∧ SameBytes s t) ∧
      (∀ s' ls, q < 256 → x.valid = true → x.recsz = rs.toNat → (x.tail - x.head).toNat < 2 ^ x.log2n →
        (∀ va ∈ x.slotVas x.tail, va < landingVa) →
        s.placeAll (64 + q % 2) x.cls ⟨c.g.vm, x.asid, false, false⟩ .engWrite (x.slotVas x.tail) = .ok s' ls →
        ∃ t n', exec (.qenq h rs d b vr) s = .next t ∧ status t 0 ∧ t.mem = s'.mem ∧
        (t.wave c.wi).counted = c.w.counted ++ [(c.w.serial, n')] ∧ n'.posts = [(l, 256 * c.g.vm + q, x.tail)] ∧
        t.queue c.g.vm q = { x with tail := x.tail + 1, pend := x.pend ++ [(ls.map Loc.key).zip
          ((List.range n).flatMap fun j => lowBytes 4 (c.w.readAt vr l j).toNat)] })) ∧
    (c.regCheck [(d, 1), (vr, n)] [(b, 1)] = none →
      let status := fun t (ws : List PendWrite) (v : Nat) =>
        Counts s t c .ld none (some b) (ws ++ c.w.pending c.act d fun _ => ([doneWord d v], false))
      (256 ≤ q ∨ x.valid = false ∨ x.recsz ≠ rs.toNat →
        ∃ t, exec (.qdeq h rs d b vr) s = .next t ∧ status t [] 2 ∧ t.queues = s.queues ∧ SameBytes s t) ∧
      (q < 256 → x.valid = true → x.recsz = rs.toNat → x.commit = x.head →
        ∃ t, exec (.qdeq h rs d b vr) s = .next t ∧ status t [] 1 ∧ t.queues = s.queues ∧ SameBytes s t) ∧
      (∀ s' ls, q < 256 → x.valid = true → x.recsz = rs.toNat → x.commit ≠ x.head →
        (∀ va ∈ x.slotVas x.head, va < landingVa) →
        s.placeAll (64 + q % 2) x.cls ⟨c.g.vm, x.asid, false, false⟩ .engRead (x.slotVas x.head) = .ok s' ls →
        ∃ t ws, exec (.qdeq h rs d b vr) s = .next t ∧ status t ws 0 ∧ t.mem = s'.mem ∧
        t.queue c.g.vm q = { x with head := x.head + 1 } ∧
        ws.map (fun p => (p.lane, p.key, p.val)) = (c.w.dstKeys vr l n).zipIdx.map fun kj =>
          (l, kj.1, .ofNat 32 (leNat (((ls.map Loc.key).map s'.byte).drop (4 * kj.2) |>.take 4)))))) ∧
  (∀ (s : State) (h : Hdr) (c : Ctx) (d a b : Operand) (l : Nat), s.ctx h = some c → OnlyLane c l → c.w.ldc < 63 →
    c.regCheck [(d, 1)] [(a, 2), (b, 4)] = none →
    let entry := c.w.read64 a 0
    let core := c.b.core
    let done := fun t (v : Nat) => exec (.spawn h d a b) s = .next t ∧
      Counts s t c .ld (some a) (some b) (c.w.pending c.act d fun _ => ([doneWord d v], false)) ∧ SameBytes s t ∧ t.grids = s.grids
    (berthDesc c.g.record entry.toNat = none → exec (.spawn h d a b) s = .next (s.takeTrap c 0x17 c.act 0)) ∧
    (∀ n, berthDesc c.g.record entry.toNat = some n →
      (∀ i k, (s.core core).openBerth c.b.grid entry = some (i, k) → ∃ t, done t 0 ∧
        berthAt t core i = some { k with lanes := k.lanes ++ [payOf c b l], sailed := decide (k.lanes.length = 31),
                                         sailedAt := if k.lanes.length = 31 then s.clk else k.sailedAt } ∧
        t.sailed = s.sailed ++ (if k.lanes.length = 31 then [(core, i)] else []) ∧
        ∀ j, j ≠ i → berthAt t core j = berthAt s core j) ∧
      ((s.core core).openBerth c.b.grid entry = none → ∀ i, i < 32 → berthAt s core i = none →
        (∀ j < i, berthAt s core j ≠ none) → ∃ t, done t 0 ∧ t.sailed = s.sailed ∧
        berthAt t core i = some { grid := c.b.grid, entry := entry, desc := n, lanes := [payOf c b l], since := s.clk } ∧
        ∀ j, j ≠ i → berthAt t core j = berthAt s core j) ∧
      ((s.core core).openBerth c.b.grid entry = none → (∀ i < 32, berthAt s core i ≠ none) →
        ∃ t, done t 1 ∧ t.cores = s.cores ∧ t.sailed = s.sailed)))

namespace Sys2Proof.Claims

/-- The words of an object entry as they stand at its home. -/
def entryWords (s : State) (c : Ctx) (acc : Access) (obj : Nat) : List DWord :=
  (List.range 4).map fun i => s.word64 (((s.lookup (stallUnit c.b.core acc) (s.objSpace c.g.vm) acc (s.objVa c.g.vm obj)).map Loc.key).getD 0 + 8 * i)

/-- The checks of R75 pass for some objects and no copy of an entry is held: below COUNT, in the translated space and translated,
V set and no reserved bit. -/
def ObjectsPass (s : State) (c : Ctx) (acc : Access) (objs : List Nat) : Prop :=
  s.land.objs = [] ∧ c.w.cancel = none ∧ ∀ o ∈ objs, o < s.objCount c.g.vm ∧ s.objVa c.g.vm o < landingVa ∧
    (s.lookup (stallUnit c.b.core acc) (s.objSpace c.g.vm) acc (s.objVa c.g.vm o)) ≠ none ∧ objExists (entryWords s c acc o) = true

/-- A result word of R82. -/
def resultWord (code cause age sz : Nat) (noh : Bool) : Word :=
  .ofNat 32 (code * 2 ^ 28 + cause * 2 ^ 26 + noh.toNat * 2 ^ 25 + sz * 2 ^ 22 + age * 2 ^ 14)

/-- No entry of the set of `i` is expired (R81). -/
def SetFresh (s : State) (i : Nat) : Prop := ∀ j, j / 16 = i / 16 → s.expired (s.tagAt j) = false

/-- Everything of the Landing but entry `i` and copies of object entries is as before. -/
def OnlyTag (s t : State) (i : Nat) (e : TagEntry) : Prop :=
  t.tagAt i = e ∧ (∀ j, j ≠ i → t.tagAt j = s.tagAt j) ∧ t.lreg = s.lreg ∧ t.land.quar = s.land.quar ∧ t.land.serial = s.land.serial

end Sys2Proof.Claims

/-- OSCLOOK, OSCPROV and OSCWAIT (R81-R86, R325-R327, R330): with the Landing not in use each lane of OSCLOOK and OSCPROV receives
BUSY with cause 3; OSCLOOK of one lane that chooses a current VALID entry receives HIT with its payload; OSCPROV on an entry that
is no provisional one of its VM's receives NONE; OSCPROV that chooses no entry in a set with a free way, while PROVWIN is not 0, the
object's queue can take its record and the heap a block, receives MISS, and the way becomes PROV_FLIGHT for its key with that block, its
SPEC record reserved in the queue (row 13); with PROVWIN 0 it is refused with NONE; an OSCWAIT lane whose handle names no entry it may see receives LOST, a current one
HIT, and one in FLIGHT parks as a watcher.

That no copy of an object entry is held is a premise of this statement alone (log 14). -/
def Obligations.LandingRequests : Prop :=
  ∀ (s : State) (h : Hdr) (c : Ctx) (st : Bool) (d a b : Operand) (l : Nat), s.ctx h = some c → c.w.ldc < 63 →
    let key := fun l => (c.w.read64 a l).toNat % 2 ^ 56
    let objs := (lanesOf c.act).map fun l => keyObj (key l)
    let va := fun (p : Nat) => landingVa + 256 * p
    (c.act ≠ 0 → ObjectsPass s c .engRead objs → s.landOff = true →
      (c.regCheck [(d, 4)] [(a, 2)] = none → ∃ t, exec (.osclook h st d a) s = .next t ∧
        Counts s t c .ld (some a) none (c.w.pending c.act d fun _ => ([resultWord 3 3 0 0 false, 0, 0, 0], false)) ∧ t.land.tags = s.land.tags) ∧
      (c.regCheck [(d, 1)] [(a, 2)] = none → ∃ t, exec (.oscprov h d a) s = .next t ∧
        Counts s t c .ld (some a) none (c.w.pending c.act d fun _ => ([resultWord 3 3 0 0 false], false)) ∧ t.land.tags = s.land.tags)) ∧
    (∀ i, OnlyLane c l → ObjectsPass s c .engRead objs → s.landOff = false → SetFresh s (keySet (key l)) →
      (∀ j, j / 16 = keySet (key l) / 16 → (s.tagAt j).state ≠ 3 ∧ (s.tagAt j).state ≠ 4) →
      s.chooseEntry c.g.vm (key l) = some (i, true) →
      (c.regCheck [(d, 4)] [(a, 2)] = none → (s.tagAt i).state = 2 →
        (s.tagAt i).gen = bits ((entryWords s c .engRead (keyObj (key l))).getD 0 0) 55 48 →
        ∃ t, exec (.osclook h st d a) s = .next t ∧
        Counts s t c .ld (some a) none (c.w.pending c.act d fun _ => ([resultWord 0 0 (min 255 (s.lreg.frame - (s.tagAt i).fillframe).toNat) (s.tagAt i).sz false,
          0, .ofNat 32 (va (s.tagAt i).pay), .ofNat 32 (va (s.tagAt i).pay / 2 ^ 32)], false)) ∧
        OnlyTag s t i { s.tagAt i with lasthit := s.lreg.frame }) ∧
      (c.regCheck [(d, 1)] [(a, 2)] = none → ∃ t, exec (.oscprov h d a) s = .next t ∧
        Counts s t c .ld (some a) none (c.w.pending c.act d fun _ => ([resultWord 7 0 0 0 false], false)) ∧ t.land.tags = s.land.tags)) ∧
    (∀ i, OnlyLane c l → ObjectsPass s c .engRead objs → s.landOff = false → SetFresh s (keySet (key l)) →
      s.chooseEntry c.g.vm (key l) = none → i / 16 = keySet (key l) / 16 → (s.tagAt i).state = 0 →
      (∀ j < i, j / 16 = i / 16 → (s.tagAt j).state ≠ 0) → c.regCheck [(d, 1)] [(a, 2)] = none →
      let res := fun t (code : Nat) => exec (.oscprov h d a) s = .next t ∧
        Counts s t c .ld (some a) none (c.w.pending c.act d fun _ => ([resultWord code 0 0 0 false], false))
      let obj := keyObj (key l)
      let ws := entryWords s c .engRead obj
      let s1 := (s.objRead c.b.cls.val (dieOfObj obj)
        (((s.lookup (stallUnit c.b.core .engRead) (s.objSpace c.g.vm) .engRead (s.objVa c.g.vm obj)).map Loc.key).getD 0)).1
      let q := bits (ws.getD 2 0) 63 56
      let sz := bits (ws.getD 2 0) 47 0 / 8 ^ (key l % 16) % 8
      let x := s.queue c.g.vm q
      (s.lreg.provwin = 0 → ∃ t, res t 7 ∧ t.land.tags = s.land.tags) ∧
      (∀ s2 ls blk, s.lreg.provwin ≠ 0 → x.valid = true → x.recsz = 2 → (x.tail - x.head).toNat < 2 ^ x.log2n →
        (∀ va ∈ x.slotVas x.tail, va < landingVa) →
        s1.placeAll (64 + q % 2) x.cls ⟨c.g.vm, x.asid, false, false⟩ .engWrite (x.slotVas x.tail) = .ok s2 ls →
        s1.freeBlockOf (i / 2 ^ 19) (blockLines (sz + 1)) = some blk →
        ∃ t, res t 1 ∧ OnlyTag { s with land := { s.land with serial := t.land.serial } } t i { (s.tagAt i) with
            state := 3, key := key l, owner := c.g.vm, acl := bits (ws.getD 0 0) 47 32, gen := bits (ws.getD 0 0) 55 48,
            fillframe := s.lreg.frame, lasthit := s.lreg.frame, sz := sz, fser := s.nextSerial i, fpay := blk, retain := false,
            osz := 0, oldfill := 0, watch := [0, 0, 0, 0] } ∧
          (t.queue c.g.vm q).tail = x.tail + 1 ∧ (t.queue c.g.vm q).pend = x.pend ++ [(ls.map Loc.key).zip
            (([2 ^ 63 + bits (ws.getD 1 0) 63 63 * 2 ^ 61 + c.g.vm * 2 ^ 56 + key l,
               (i * 2 ^ 10 + s.nextSerial i * 4) * 2 ^ 32 + bits (ws.getD 0 0) 55 48 * 2 ^ 24 + sz * 2 ^ 21, va blk,
               bits (ws.getD 0 0) 31 0 * 2 ^ 32 + s.lreg.frame.toNat] : List Nat).flatMap (lowBytes 8))])) ∧
    (OnlyLane c l → c.regCheck [(d, 4)] [(a, 1), (b, 1)] = none →
      let w := c.w.read a l
      let i := w.toNat / 2 ^ 10
      let ser := w.toNat / 4 % 256
      let e := s.tagAt i
      SetFresh s i →
      (ser = 0 ∨ e.fser ≠ ser ∨ s.sees c.g.vm e = false → ∃ t, exec (.oscwait h d a b) s = .next t ∧
        Counts s t c .ld (some a) (some b) (groupWrites l (c.w.dstKeys d l 4) [resultWord 6 0 0 0 false, w, 0, 0]) ∧ t.land = s.land) ∧
      (ser ≠ 0 → e.fser = ser → s.sees c.g.vm e = true → e.state = 2 → ∃ t, exec (.oscwait h d a b) s = .next t ∧
        Counts s t c .ld (some a) (some b) (groupWrites l (c.w.dstKeys d l 4) [resultWord 0 0 (min 255 (s.lreg.frame - e.fillframe).toNat) e.sz false, w,
          .ofNat 32 (va e.pay), .ofNat 32 (va e.pay / 2 ^ 32)]) ∧ OnlyTag s t i { e with lasthit := s.lreg.frame }) ∧
      (ser ≠ 0 → e.fser = ser → s.sees c.g.vm e = true → e.state = 1 → e.watch = [0, 0, 0, 0] → c.w.read b 0 ≠ 0 →
        ∃ t n, exec (.oscwait h d a b) s = .next t ∧ Outstanding s t c .ld n ∧ n.writes = [] ∧
        n.parked = [⟨l, w, i, (c.w.dstKeys d l 4).map fun k => if copied c (some a) (some b) k then noKey else k, s.clk + (c.w.read b 0).toNat⟩] ∧
        OnlyTag s t i { e with watch := [s.waveWatcher c.wi, 0, 0, 0] }))

/-- OSCFILL, OSCINV and OSCTICK (R77, R81, R84, R86, R91, R325, R328, R329): an OSCFILL that names no entry its VM owns is not accepted and
changes no entry; one that names an entry in FLIGHT without watchers or old payload makes it VALID with the filled payload; OSCINV,
its entry read and translated for a write, advances its object's generation at the home, and under a store window raises
SPECULATION_VIOLATION; OSCTICK advances FRAME in a VM that may; an object number at or past COUNT raises
LANDING_OBJECT, OSCTICK in another VM LANDING_TICK. -/
def Obligations.LandingUpdates : Prop :=
  ∀ (s : State) (h : Hdr) (c : Ctx) (d a : Operand) (l : Nat), s.ctx h = some c → c.w.ldc < 63 → c.w.stc < 63 →
    (OnlyLane c l → c.regCheck [(d, 1)] [(a, 1)] = none → (s.core c.b.core).l1 = [] →
      let i := (c.w.read a l).toNat / 2 ^ 10
      let ser := (c.w.read a l).toNat / 4 % 256
      let e := s.tagAt i
      (s.landOff = true ∨ (SetFresh s i ∧ (ser = 0 ∨ e.fser ≠ ser ∨ e.owner ≠ c.g.vm)) → ∃ t, exec (.oscfill h d a) s = .next t ∧
        Counts s t c .ld (some a) none (c.w.pending c.act d fun _ => ([doneWord d 1], false)) ∧ t.land = s.land ∧ SameBytes s t) ∧
      (s.landOff = false → SetFresh s i → ser ≠ 0 → e.fser = ser → e.owner = c.g.vm → e.state = 1 → e.retain = false →
        e.watch = [0, 0, 0, 0] → ∃ t, exec (.oscfill h d a) s = .next t ∧
        Counts s t c .ld (some a) none (c.w.pending c.act d fun _ => ([doneWord d 0], false)) ∧
        OnlyTag s t i { e with state := 2, pay := e.fpay, retain := false, osz := 0, oldfill := 0, fillframe := s.lreg.frame,
                               lasthit := s.lreg.frame })) ∧
    (c.act ≠ 0 → c.regCheck [] [(a, 1)] = none →
      let obj := (c.w.read a 0).toNat
      let home := ((s.lookup (stallUnit c.b.core .engWrite) (s.objSpace c.g.vm) .engWrite (s.objVa c.g.vm obj)).map Loc.key).getD 0
      let writable := s.lookup (stallUnit c.b.core .engWrite) (s.objSpace c.g.vm) .engWrite (s.objVa c.g.vm obj) ≠ none
      (∀ bs, ObjectsPass s c .engRead [obj] → writable → c.w.spec = some bs →
        (∃ i < 8, ∀ b ∈ bs, ¬(b.1 ≤ s.objVa c.g.vm obj + i ∧ s.objVa c.g.vm obj + i < b.1 + b.2)) →
        exec (.oscinv h a) s = .next ((s.objReadAll c.b.cls.val ((lanesOf c.act).map fun l => (l, obj, ((s.lookup
          (stallUnit c.b.core .engRead) (s.objSpace c.g.vm) .engRead (s.objVa c.g.vm obj)).map Loc.key).getD 0))).1.takeTrap
            c 0x33 c.act (.ofNat 64 (s.objVa c.g.vm obj)))) ∧
      (ObjectsPass s c .engRead [obj] → writable → c.w.spec = none → s.secPoison home = false → s.heapInForce = false →
        s.cmp.stored = [] → s.hbmErr = [] → home + 8 < windowTop → home % 64 = 0 →
        ∃ t, exec (.oscinv h a) s = .next t ∧ Counts s t c .st (some a) none [] ∧ t.byte (home + 6) = s.byte (home + 6) + 1 ∧
        (∀ k, k < windowTop → k ≠ home + 6 → t.byte k = s.byte k) ∧ ∀ o ∈ t.land.objs, o.loc ≠ home) ∧
      (s.objCount c.g.vm ≤ obj → exec (.oscinv h a) s = .next (s.takeTrap c 0x1E c.act 0))) ∧
    (c.act ≠ 0 → (s.lreg.tickvm.getLsbD c.g.vm = true → s.land.quar = [] → ∃ t, exec (.osctick h) s = .next t ∧ Counts s t c .st none none [] ∧
        t.lreg = { s.lreg with frame := s.lreg.frame + 1 } ∧ SameBytes s t ∧ t.land = s.land) ∧
      (s.lreg.tickvm.getLsbD c.g.vm = false → exec (.osctick h) s = .next (s.takeTrap c 0x1F c.act 0)))

namespace Sys2Proof.Claims

/-- A texture descriptor in plain storage: its bytes as they stand at their homes, its core caching nothing, nothing compressed, and for a
service core no spill under way. -/
def DescAt (s : State) (c : Ctx) (va : Nat) (desc : List Byte) : Prop :=
  s.cmp.en = false ∧ s.cmp.stored = [] ∧ (c.b.svc = true → ∀ k, (s.core k).ferry = []) ∧ Clear s c false false .load ((lanesOf c.act).map fun l => (l, va)) 32 ∧ (s.core c.b.core).l1 = [] ∧
    (∀ i < 32, (s.locOf c .load (va + i)).key < windowTop) ∧ desc = (span va 32).map fun x => s.byte (s.locOf c .load x).key

/-- The four words of a group. -/
def groupOf (c : Ctx) (o : Operand) (l : Nat) : List Word := (List.range 4).map fun j => c.w.readAt o l j

end Sys2Proof.Claims

/-- TEX, TEXQ.lod, TEXQ.size and VEMIT (R331-R335, R338, R365): TEXQ.size gives the width and height of its level, the levels and the
layers, TEXQ.lod the level of detail, the taps and the axes of its footprint, TEX the filtered value of its taps' texels; a malformed
descriptor raises TEX_DESC.  VEMIT gives the active lanes' vertices to the wave's triple and its whole triples to the grid; outside a
geometry wave, or after rasterisation, it raises RASTER_CONTEXT.

Readings of R333 and R334 that the manual leaves open are the model's choice (log 16); that nothing is compressed is a premise of this
statement alone. -/
def Obligations.TextureAndVertexInstructions : Prop :=
  ∀ (s : State) (h : Hdr) (c : Ctx) (cone : Bool) (d a b g : Operand) (desc : List Byte), s.ctx h = some c → c.act ≠ 0 →
    (c.w.ldc < 63 → DescAt s c (c.w.read64 a 0).toNat desc →
      let t0 := texDescOf desc
      let fp := fun l => t0.footprint cone (groupOf c b l) (groupOf c g l)
      let taps := fun l => t0.taps (fp l) (groupOf c b l)
      let reads := (lanesOf c.act).flatMap fun l =>
        (((taps l).flatMap fun ts => ts.flatMap Tap.texels).filterMap id).eraseDups.map fun p => (l, p)
      let texel := fun p => (span p t0.texel).map fun x => s.byte (s.locOf c .load x).key
      (texDescBad desc = false →
        (c.regCheck [(d, 4)] [(a, 2), (b, 1)] = none → ∃ t bad, exec (.texqSize h d a b) s = .next t ∧ SameBytes s t ∧
          Counts s t c .ld (some a) (some b) (c.w.pending c.act d fun l => ([
            if (c.w.read b l).toNat ≤ t0.lvm1 then .ofNat 32 (max 1 (t0.w / 2 ^ (c.w.read b l).toNat)) else 0,
            if (c.w.read b l).toNat ≤ t0.lvm1 then .ofNat 32 (max 1 (t0.h / 2 ^ (c.w.read b l).toNat)) else 0,
            .ofNat 32 (t0.lvm1 + 1), .ofNat 32 t0.layers], bad))) ∧
        (c.regCheck [(d, 4)] [(a, 2), (b, 4), (g, 4)] = none → ∃ t bad, exec (.texqLod h cone d a b g) s = .next t ∧ SameBytes s t ∧
          Counts s t c .ld (some a) (some b) (c.w.pending c.act d fun l => ([(fp l).lod, .ofNat 32 (fp l).n, (fp l).major, (fp l).minor], bad))) ∧
        (c.regCheck [(d, 4)] [(a, 2), (b, 4), (g, 4)] = none → Clear s c false false .load reads t0.texel →
          (∀ x ∈ reads, ∀ v ∈ span x.2 t0.texel, (s.locOf c .load v).key < windowTop) →
          ∃ (t : State) (bad : Nat → Bool), exec (.tex h cone d a b g) s = .next t ∧ SameBytes s t ∧
          Counts s t c .ld (some a) (some b) (c.w.pending c.act d fun l => (t0.result (fp l) (taps l)
            (fun o => match o with
              | some p => t0.channels (texel p)
              | none => [0, 0, 0, 0]), bad l)))) ∧
      (texDescBad desc = true → c.regCheck [(d, 4)] [(a, 2), (b, 4), (g, 4)] = none →
        exec (.tex h cone d a b g) s = .next (s.takeTrap c 0x1B c.act (c.w.read64 a 0)))) ∧
    (c.regCheck [] [(a, 4), (b, 1), (g, 1)] = none →
      let vs := (lanesOf c.act).map fun l => (⟨(c.w.read g 0).toNat % 2 ^ 24, c.w.read b l, groupOf c a l⟩ : Vertex)
      let r := c.w.addVertices c.wi vs
      (recKind c.g.record = 1 → c.w.emitted = false → c.b.grid < s.grids.length → ∃ t, exec (.vemit h a b g) s = .next t ∧
        (t.wave c.wi).triple = r.1.triple ∧ (t.grid c.b.grid).triangles = c.g.triangles ++ r.2 ∧ StepsOn s t c ∧
        SameRegs c (t.wave c.wi) ∧ SameRest c.w (t.wave c.wi) ∧ SameBytes s t ∧ t.blocks = s.blocks) ∧
      (recKind c.g.record ≠ 1 ∨ c.w.emitted = true → exec (.vemit h a b g) s = .next (s.takeTrap c 0x1D c.act 0)))

/-! ## Events: waits and timers, translation, faults and errors, fabric -/

/-- COUNTER_DONE, OSCWAIT_TIMEOUT, RAY_TIMEOUT and RAY_RELOOKUP (R86, R97, R223, R224).  A counted part's results land in its lanes, each
word of another lane lands with them or later, and with its last lanes it leaves its counter; one that moved data of HBM ends in a slot
of its class (R68); a QENQ lane's do not land before its record is written (R150, R323); a parked lane whose time has come receives TIMEOUT and leaves WATCH; a ray parked for
RAYTMO * 1,024 clk ends; one that found the Landing busy looks again after 1,024 clk.

In which parts a counted instruction ends, and which words of other lanes land, is free (log 4); that a QENQ lane waits for its record is a reading (log 44). -/
def Obligations.WaitEvents : Prop :=
  ∀ (s : State) (wave idx : Nat) (lanes : LaneMask) (n : Counted), wave < s.waves.length →
    (s.wave wave).counted.find? (fun e => e.1 == idx) = some (idx, n) →
    (n.op = none → n.discarded = false → lanes ≠ 0 → lanes &&& n.lanes = lanes → (∀ p ∈ n.parked, lanes.getLsbD p.lane = false) →
      (∀ r ∈ n.posts, lanes.getLsbD r.1 = true → s.unwritten r.2 = false) →
      n.moved = false ∨ s.slotFor 1 (s.block (s.wave wave).block).cls.val = true →
      ∃ t, exec (.counterDone wave idx lanes) s = .next t ∧ OnlyWave s t wave ∧
      (lanes = n.lanes → (t.wave wave).counter n.ctr = (s.wave wave).counter n.ctr - 1 ∧
        (t.wave wave).counted = (s.wave wave).counted.filter fun e => e.1 != idx) ∧
      (lanes ≠ n.lanes → ∀ ctr, (t.wave wave).counter ctr = (s.wave wave).counter ctr) ∧
      (∀ k, k < 16384 → (∀ p ∈ n.writes, p.key = k → lanes.getLsbD p.lane = false ∧ Config.wordLands s.choice p.lane k = false) →
        (t.wave wave).reg k = (s.wave wave).reg k ∧ (t.wave wave).poisoned k = (s.wave wave).poisoned k) ∧
      ((n.writes.map PendWrite.key).Nodup → ∀ p ∈ n.writes, lanes.getLsbD p.lane = true →
        (p.key < 16384 → (t.wave wave).reg p.key = p.val ∧ (t.wave wave).poisoned p.key = p.poison) ∧
        (∀ f l, l < 32 → p.key = flagKey f l → (t.wave wave).flagOf f l = p.val.getLsbD 0))) ∧
    (∀ r ∈ n.posts, lanes.getLsbD r.1 = true → s.unwritten r.2 = true → exec (.counterDone wave idx lanes) s = .fault .eventCannotOccur) ∧
    (n.moved = true → s.slotFor 1 (s.block (s.wave wave).block).cls.val = false → exec (.counterDone wave idx lanes) s = .fault .eventCannotOccur) ∧
    (∀ p, (s.wave wave).counted = [(idx, n)] → n.parked = [p] → p.lane < 32 → lanes = 1#32 <<< p.lane → p.timeout ≤ s.clk →
      ∃ t, exec (.oscwaitTimeout wave idx lanes) s = .next t ∧
      (t.wave wave).counted = [(idx, { n with parked := [], writes := n.writes ++ groupWrites p.lane p.dst [resultWord 5 0 0 0 false, p.handle, 0, 0] })] ∧
      t.tagAt p.entry = { s.tagAt p.entry with watch := dropWatch (s.tagAt p.entry).watch (s.waveWatcher wave) } ∧
      (∀ i, i ≠ p.entry → t.tagAt i = s.tagAt i) ∧ ∀ j, j ≠ wave → t.wave j = s.wave j) ∧
    (∀ op ray o y, s.rayAt op ray = some (o, y) →
      (y.lifeR = .parked → s.lreg.raytmo ≠ 0 → y.since + s.lreg.raytmo * 1024 ≤ s.clk → ∃ t, exec (.rayTimeout op ray) s = .next t ∧
        t.tagAt y.entry = { s.tagAt y.entry with watch := dropWatch (s.tagAt y.entry).watch (rayWatcher (clusterOf o.core) y.slot) } ∧
        t.ops[op]? = some { o with rays := o.rays.map fun z => if z.idx == y.idx then y.stop o RaySt.timeout else z } ∧ SameBytes s t) ∧
      (y.lifeR = .again → y.since + 1024 ≤ s.clk → ∃ t, exec (.rayRelookup op ray) s = .next t ∧
        t = { s with ops := s.ops.set op { o with rays := o.rays.map fun z => if z.idx == y.idx then { y with lifeR := .running } else z } }))

namespace Sys2Proof.Claims

/-- A TLB command in TLBINV (R30). -/
def invWord (scope : Nat) (vm : BitVec 5) (asid : BitVec 16) (pages : Word) : DWord :=
  .ofNat 64 (scope * 2 ^ 59 + vm.toNat * 2 ^ 54 + asid.toNat * 2 ^ 38 + pages.toNat)

/-- A command was taken: BUSY is set and the command held with TLBINVVA as it stands; while one is carried out, or for a VM that is not there, only ERR is set. -/
def Invalidates (s : State) (o : Host.Outcome State Fault Refusal) (vm : BitVec 5) (cmd : DWord) : Prop :=
  o = .next { s with x := if s.x.invBusy = true ∨ 17 ≤ vm.toNat then { s.x with invErr := true }
    else { s.x with invBusy := true, invCmd := cmd, invAt := s.x.invVa } }

end Sys2Proof.Claims

/-- TLBINV and its end, PRI_RESPONSE, and walks (R17, R28, R30, R31, R38): each TLBINV command sets BUSY with its scope, or only ERR;
TLBINV_DONE clears BUSY and leaves no cached translation that the command names, and every other, and no dirty byte in an L1 that a named
one maps; a walk that ends in a slot of its class leaves its wave one page less to wait for, or waiting on a fault record of its VA, or
asks for its host page; a page request is answered once.

That the named translations go when TLBINV ends is the model's choice (log 6), and which TLBINVVA a command takes (log 50). -/
def Obligations.TranslationEvents : Prop :=
  ∀ (s : State) (vm : BitVec 5) (asid : BitVec 16) (pages : Word) (page : BitVec 40),
    Invalidates s (exec .tlbinvEverything s) 0 (invWord 0 0 0 0) ∧ Invalidates s (exec (.tlbinvVm vm) s) vm (invWord 1 vm 0 0) ∧
    Invalidates s (exec (.tlbinvAsid vm asid) s) vm (invWord 2 vm asid 0) ∧
    Invalidates s (exec (.tlbinvVaRange vm asid pages) s) vm (invWord 3 vm asid pages) ∧
    Invalidates s (exec (.tlbinvContext vm) s) vm (invWord 4 vm 0 0) ∧
    exec .tlbinvErrClear s = .next { s with x := { s.x with invErr := false } } ∧
    (s.x.invBusy = true → ∃ t, exec .tlbinvDone s = .next t ∧ t.x.invBusy = false ∧
      (∀ u, u ∈ t.x.tlb ↔ u ∈ s.x.tlb ∧ s.x.named u = false) ∧ t.waves = s.waves ∧
      ((∀ k, ∀ ln ∈ (s.core k).l1, ln.dirty = 0) → t.mem = s.mem) ∧
      (∀ k u, u ∈ s.x.tlb → s.x.named u = true → ∀ ln ∈ (t.core k).l1, u.maps ln.loc = true → ln.dirty = 0) ∧
      (s.x.invCmd = invWord 0 0 0 0 → t.x.tlb = []) ∧
      (s.x.invCmd = invWord 1 vm 0 0 → ∀ u, u ∈ t.x.tlb ↔ u ∈ s.x.tlb ∧ u.vm ≠ vm.toNat)) ∧
    (∀ i r, s.x.pri[i]? = some r → r.failed = false →
      (∃ t, exec (.priResponse i true page) s = .next t ∧ t.x.pri = s.x.pri.eraseIdx i ∧
        (t.x.hostPages.find? fun p => p.1 == r.page) = some (r.page, page.toNat) ∧ t.mem = s.mem ∧ t.waves = s.waves) ∧
      exec (.priResponse i false page) s = .next { s with x := { s.x with pri := s.x.pri.set i { r with failed := true } } }) ∧
    (∀ wi st, s.walkNext wi = some st → (s.wave wi).life = .running → wi < s.waves.length →
      (s.block (s.wave wi).block).life = .resident → (s.block (s.wave wi).block).halted = false →
      let core := (s.block (s.wave wi).block).core
      let unit := stallUnit core st.access
      (∀ key e log2, s.walk (tlbBehind unit) st.space st.access st.va = .leaf key e log2 →
        (e.getLsbD 12 = false → s.slotFor 1 (s.block (s.wave wi).block).cls.val = true →
          ∃ t, exec (.translationWalkDone wi) s = .next t ∧ (t.wave wi).stalls = (s.wave wi).stalls.filter (fun x => x != st) ∧
          (∃ u ∈ t.x.tlb, u.unit = tlbFor unit st.space ∧ u.vm = st.space.vm ∧ u.log2 = log2 ∧ u.pa = pteAddr e ∧
            u.va = st.va / 2 ^ log2 * 2 ^ log2) ∧ ∀ j, j ≠ wi → t.wave j = s.wave j) ∧
        (e.getLsbD 12 = true → (∀ p ∈ s.x.hostPages, p.1 ≠ (pteAddr e + st.va % 2 ^ log2) / 4096) →
          (∀ p ∈ s.x.pri, p.page ≠ (pteAddr e + st.va % 2 ^ log2) / 4096) →
          exec (.translationWalkDone wi) s = .next { s with x := { s.x with
            pri := s.x.pri ++ [⟨(pteAddr e + st.va % 2 ^ log2) / 4096, false⟩] } })) ∧
      (∀ kind ptepa sys, s.walk (tlbBehind unit) st.space st.access st.va = .fault kind ptepa sys → s.x.faults = [] →
        ∃ t r, exec (.translationWalkDone wi) s = .next t ∧ t.x.faults = [r] ∧ r.id = none ∧ r.kind = kind ∧ r.va = st.va ∧
        r.core = core ∧ r.ptepa = ptepa ∧ r.sys = sys ∧
        (t.wave wi).stalls = (s.wave wi).stalls.map (fun x => if x = st then { st with fault := some r.serial } else x) ∧ t.mem = s.mem))

/-- The fault queue, its answers, and the error log (R35, R36, R404, R411): the oldest held record goes to the ring's slot of TAIL as
its 32 bytes, TAIL and the ID advance, and vector 0 is raised; RETRY takes the record away and nothing waits on it any more; CANCEL
does so too, and where no block is killed for it every instruction whose access waited will trap with the record's kind and VA, and every
engine operation fails with MEMORY; a fetch that waited alone traps its wave with MEMORY_FAULT at once, and a block whose Window Ferry or
save waited is killed; an answer that names no record does nothing.  The error log writes its oldest record alike with vector 2, only
counts it while disabled, and drops a corrected-error record where the ring is full; corrected errors are gathered after a second in a
record for each channel. -/
def Obligations.FaultAndErrorRecords : Prop :=
  ∀ (s : State) (id : Word) (r : FaultRec) (e : ErrRec) (rest : List ErrRec),
    (∀ slot, s.x.faults.find? (fun q => q.id.isNone) = some r → s.x.posting = true → s.ringPresent = true →
      ringFull s.x.fqLog2 s.x.fqHead s.x.fqTail = false → s.heapInForce = false → s.cmp.stored = [] →
      slot = hbmKey false (s.x.fqBase + 32 * (s.x.fqTail.toNat % 2 ^ s.x.fqLog2)) →
      ∃ t, exec .faultRecordPost s = .next t ∧ t.x.fqTail = s.x.fqTail + 1 ∧ t.x.nextId = s.x.nextId + 1 ∧ t.msi = s.msi ++ [(0, 0)] ∧
      t.x.faults = s.x.faults.map (fun q => if q.serial = r.serial then { q with id := some s.x.nextId } else q) ∧
      (List.range 32).map (fun i => t.byte (slot + i)) = wordsBytes (r.words s.x.nextId) ∧
      ∀ k, k < windowTop → k < slot ∨ slot + 32 ≤ k → t.byte k = s.byte k) ∧
    ((∀ q ∈ s.x.faults, q.id ≠ some id) → exec (.faultrespRetry id) s = .next s ∧ exec (.faultrespCancel id) s = .next s) ∧
    (s.faultOf id = some r →
      let detail : DWord := .ofNat 64 (r.kind * 2 ^ 56 + r.va % 2 ^ 56)
      let gone := fun (t : State) => t.x.faults = s.x.faults.filter (fun q => q.serial != r.serial)
      (∃ t, exec (.faultrespRetry id) s = .next t ∧ gone t ∧ t.mem = s.mem ∧ t.waves.length = s.waves.length ∧
        (∀ i < s.waves.length, (t.wave i).stalls = (s.wave i).stalls.filter fun st => st.fault != some r.serial) ∧
        (∀ w ∈ t.waves, w.ferryFault ≠ some r.serial) ∧ (∀ o ∈ t.ops, o.fault ≠ some r.serial) ∧
        (∀ b ∈ t.blocks, b.saveFault ≠ some r.serial) ∧ ∀ g ∈ t.grids, ∀ f ∈ g.rasterFault, f.2 ≠ r.serial) ∧
      ((∀ w ∈ s.waves, w.ferryFault ≠ some r.serial) → (∀ b ∈ s.blocks, b.saveFault ≠ some r.serial) →
        (∀ g ∈ s.grids, ∀ f ∈ g.rasterFault, f.2 ≠ r.serial) →
        ((∀ w ∈ s.waves, ∀ st ∈ w.stalls, st.fault = some r.serial → st.access ≠ .fetch) →
          ∃ t, exec (.faultrespCancel id) s = .next t ∧ gone t ∧ t.mem = s.mem ∧ t.blocks = s.blocks ∧
          (∀ i < s.waves.length, t.wave i = match (s.wave i).stalls.find? fun st => st.fault == some r.serial with
            | some st => { s.wave i with stalls := [], cancel := some (st.slotB, st.va, detail) }
            | none => s.wave i) ∧
          t.ops = s.ops.map fun o =>
            if o.fault = some r.serial then { o with fault := none, failed := some ⟨o.engine, 1, r.kind, o.faultVa⟩ } else o) ∧
        (∀ wi st, wi < s.waves.length → (s.wave wi).stalls = [st] → st.fault = some r.serial → st.access = .fetch →
          (∀ j, j ≠ wi → ∀ x ∈ (s.wave j).stalls, x.fault ≠ some r.serial) → (s.block (s.wave wi).block).svc = false →
          (Sparse.get 0 s.svcImg (s.grid (s.block (s.wave wi).block).grid).vm : DWord).getLsbD 63 = true →
          let p := (s.wave wi).path st.slotB
          ∃ t, exec (.faultrespCancel id) s = .next t ∧ gone t ∧ t.mem = s.mem ∧ (t.wave wi).life = .trapped ∧
          (t.wave wi).trap = some ⟨0x05, st.slotB, p.mask &&& (s.wave wi).launched, p.pc, detail, 0⟩ ∧
          ∀ j, j ≠ wi → t.wave j = s.wave j)) ∧
      ((∀ w ∈ s.waves, ∀ st ∈ w.stalls, st.fault = some r.serial → st.access ≠ .fetch) →
        (∀ k, (s.svcAt k).handled ≠ none → (s.block (s.svcAt k).block).svc = true) →
        ∃ t, exec (.faultrespCancel id) s = .next t ∧ gone t ∧
        ∀ bi < s.blocks.length, (s.block bi).life = .resident → (s.block bi).svc = false →
          ((∃ i < s.waves.length, (s.wave i).block = bi ∧ (s.wave i).ferryFault = some r.serial) ∨ (s.block bi).saveFault = some r.serial) →
          ∃ c, (t.block bi).life = .killed c)) ∧
    (s.errors = e :: rest → s.err.enabled = false → exec .errorLogRecord s = .next { s with errors := rest }) ∧
    (s.errors = e :: rest → s.err.enabled = true → s.regionPresent s.err.base (32 * 2 ^ s.err.log2n) = true → e.event ≤ 3 →
      ringFull s.err.log2n s.err.head s.err.tail = true → exec .errorLogRecord s = .next { s with errors := rest }) ∧
    (∀ slot, s.errors = e :: rest → s.err.enabled = true → s.regionPresent s.err.base (32 * 2 ^ s.err.log2n) = true →
      ringFull s.err.log2n s.err.head s.err.tail = false → s.heapInForce = false → s.cmp.stored = [] →
      slot = hbmKey false (s.err.base + 32 * (s.err.tail.toNat % 2 ^ s.err.log2n)) →
      ∃ t, exec .errorLogRecord s = .next t ∧ t.errors = rest ∧ t.err.tail = s.err.tail + 1 ∧ (0, 2) ∈ t.msi ∧
      (List.range 32).map (fun i => t.byte (slot + i)) = wordsBytes (e.words s.err.seq) ∧
      ∀ k, k < windowTop → k < slot ∨ slot + 32 ≤ k → t.byte k = s.byte k) ∧
    (s.err.aggAt + 1050000000 ≤ s.clk → ∃ t, exec .errorAggregation s = .next t ∧ t.err.aggAt = s.clk ∧ t.mem = s.mem ∧
      (∀ c, (t.hbmOf c).ce = 0) ∧ t.soft.corrected = [] ∧
      (∀ h ∈ s.hbm, h.2.ce ≠ 0 → ∃ x ∈ t.errors, x.event = 1 ∧ x.ukind = 3 ∧ x.time = h.2.ceSince ∧ x.die = h.1 / 64 ∧ x.index = h.1 % 64 ∧
        x.count = h.2.ce) ∧
      t.errors.length = s.errors.length + (s.hbm.filter fun h => h.2.ce != 0).length + s.soft.corrected.length)

/-- Soft errors of on-chip stores (R71, R193): one strikes when its time has come and the device has power.  A register word of the main
file and a scratchpad word become poisoned and keep their bits, a dirty L2 sector poisons its storage, a clean L1 or L2 sector is only
invalidated; each is logged.  A read of a poisoned flag traps the active lanes whose words are poisoned, of a J register or tensor entry
every active lane.

That the errors to come stand in a list, and their readings, are the model's choice (log 41). -/
def Obligations.SoftErrors : Prop :=
  ∀ (s : State) (n : Nat) (u : Upset) (rest : List (Nat × Upset)),
    (s.soft.upsets = [] → s.strike = s) ∧
    (s.soft.upsets = (n + 1, u) :: rest → s.strike = { s with soft := { s.soft with upsets := (n, u) :: rest } }) ∧
    (s.soft.upsets = (0, u) :: rest → s.off = false → s.strike = { s with soft := { s.soft with upsets := rest } }.struck u) ∧
    (s.soft.upsets = (0, u) :: rest → s.off = true → s.strike = { s with soft := { s.soft with upsets := rest } }) ∧
    (∀ wi pos l, wi < s.waves.length → (s.wave wi).block < s.blocks.length → (s.block (s.wave wi).block).life = .resident →
      (s.wave wi).life ≠ .ended → pos < (s.wave wi).ringN → l < 32 → ∃ t e, s.struck (.register wi (ringKey pos l)) = t ∧
        OnlyWave s { t with errors := s.errors } wi ∧ t.errors = s.errors ++ [e] ∧ e.event = 0x12 ∧
        (∀ k, (t.wave wi).reg k = (s.wave wi).reg k ∧
          (t.wave wi).poisoned k = if k = ringKey pos l then true else (s.wave wi).poisoned k)) ∧
    (∀ bi q, bi < s.blocks.length → (s.block bi).life = .resident → 4 * q < 4096 * (s.block bi).scrUnits →
      ∃ t e, s.struck (.scratch bi q) = t ∧ t.errors = s.errors ++ [e] ∧ e.event = 0x11 ∧ t.waves = s.waves ∧ SameBytes s t ∧
        (t.block bi).scratch = (s.block bi).scratch ∧ (∀ b, b ≠ bi → t.block b = s.block b) ∧
        ∀ j, Sparse.get false (t.block bi).scrPoison j = if j = q then true else Sparse.get false (s.block bi).scrPoison j) ∧
    (∀ k e, s.l2.lines.find? (fun x => x.loc == k / 256 * 256) = some e → ∃ t, s.struck (.l2Sector k) = t ∧ t.mem = s.mem ∧
      (e.secDirty (k / 64 % 4) = true → t.secPoison k = true) ∧ (e.secDirty (k / 64 % 4) = false → t.poison = s.poison) ∧
      (e.secDirty (k / 64 % 4) = true ∨ e.valid.getLsbD (k / 64 % 4) = true → ∀ x ∈ t.l2.lines, x.loc = k / 256 * 256 →
        x.valid.getLsbD (k / 64 % 4) = false ∧ x.secDirty (k / 64 % 4) = false)) ∧
    (∀ core k ln, (s.core core).line k = some ln → ln.valid.getLsbD (k / 64 % 4) = true → ln.secDirty (k / 64 % 4) = false →
      ∃ t, s.struck (.l1Sector core k) = t ∧ t.mem = s.mem ∧ t.poison = s.poison ∧
        ∀ x ∈ (t.core core).l1, x.loc = k / 256 * 256 → x.valid.getLsbD (k / 64 % 4) = false) ∧
    (∀ (w : Wave) (b : Block) (act : LaneMask),
      (∀ f : Fin 4, smallPoison w b act (.f f) = none ↔ ∀ l < 32, act.getLsbD l = true → w.poisoned (flagKey f.val l) = false) ∧
      (∀ (f : Fin 4) (m : LaneMask), smallPoison w b act (.f f) = some m → ∀ l < 32, m.getLsbD l =
        (act.getLsbD l && w.poisoned (flagKey f.val l))) ∧
      (∀ j : Fin 8, w.poisoned (jKey j.val) = true → smallPoison w b act (.j j) = some act) ∧
      (∀ e : Fin 64, Sparse.get false b.tensPoison e.val = true → smallPoison w b act (.t e) = some act))

/-- Timetable, network, idle classes, HBM, compressor (R56, R61-R70, R100): COMMIT makes the shadow pending and in the next slot 0 it
comes into force whole; a class idle for 4,096 clk is flagged; a flit is accepted or starts a retry and is held for replay until it is
accepted, and after a retry those held are sent again; a scrubbed granule is counted where it is corrected and, where the L2 does not hold
its sector, poisoned where it is not, a stored sector of a compressed block with its whole line (R109); a channel in service is refreshed;
SYNC ends with the compressor's cached headers gone.

The clock against which times are measured advances freely (log 3). -/
def Obligations.FabricEvents : Prop :=
  ∀ (s : State) (die : BitVec 3) (cls : BitVec 2) (link left granule : Nat) (ok : Bool) (ch : BitVec 6),
    (s.tt.pend = true → exec .ttctlCommit s = .next s) ∧
    (s.tt.pend = false → exec .ttctlCommit s = .next { s with tt := { s.tt with pend := true, since := s.clk } }) ∧
    (s.tt.pend = true → s.tt.since / 64 < s.clk / 64 →
      exec .timetableCopy s = .next { s with tt := { s.tt with force := s.tt.shadow, pend := false } }) ∧
    (∀ i, i = die.toNat * 4 + cls.toNat →
      Sparse.get false s.l2.idle i = false → Sparse.get 0 s.l2.last i + 4095 ≤ s.clk → ∃ t, exec (.classIdle die cls) s = .next t ∧
        Sparse.get false t.l2.idle i = true ∧ (∀ j, j ≠ i → Sparse.get false t.l2.idle j = Sparse.get false s.l2.idle j) ∧
        t = { s with l2 := t.l2 }) ∧
    (∀ x, x = s.linkOf link cls.toNat →
      let takes : Bool := !x.retry && ok && decide (x.held - left < 8)
      (left ≤ x.held → x.resend ≠ 0 ∨ s.replayed link < 64 → s.slotFor 0 cls.toNat = true → left ≤ s.slotsSince cls.toNat x.leftAt s.clk →
        ∃ t, exec (.nocFlitReceive link cls left ok) s = .next t ∧ t = { s with noc := t.noc } ∧
        (∀ l c, (l, c) ≠ (link, cls.toNat) → c < 4 → t.linkOf l c = s.linkOf l c) ∧
        t.linkOf link cls.toNat =
          { x with
            held := if takes then x.held - left + 1 else x.held - left
            accepted := if takes then x.accepted + 1 else x.accepted
            leftAt := s.clk
            retry := !takes
            resend := x.resend - 1
            replay := if takes then (if x.resend = 0 then x.replay else x.replay - 1) else if x.resend = 0 then x.replay + 1 else x.replay }) ∧
      (x.retry = true → ∃ t, exec (.nocRetry link cls) s = .next t ∧ t = { s with noc := t.noc } ∧
        t.linkOf link cls.toNat = { x with retry := false, resend := x.replay })) ∧
    (∀ k, k = die.toNat * 2 ^ 37 + 32 * granule →
      granule < 2 ^ 32 → s.present k = true → s.slotFor 1 3 = true →
        (s.granuleErr k = 0 → exec (.patrolScrub die granule 0) s = .next s) ∧
        (s.granuleErr k ≤ 1 → ∃ t, exec (.patrolScrub die granule 1) s = .next t ∧ t = { s with hbm := t.hbm, hbmErr := t.hbmErr } ∧
          t.granuleErr k = 0 ∧ (t.hbmOf (s.channelOf k)).ce = (s.hbmOf (s.channelOf k)).ce + 1 ∧
          ∀ c, c ≠ s.channelOf k → t.hbmOf c = s.hbmOf c) ∧
        (s.granuleErr k = 0 ∨ s.granuleErr k = 2 → ∃ t, exec (.patrolScrub die granule 2) s = .next t ∧ t.mem = s.mem ∧ t.granuleErr k = 2 ∧
          (s.shielded k = true → t.poison = s.poison) ∧
          (s.shielded k = false → s.blockOf (k / 256) = [] → t.secPoison k = true ∧ ∀ q, q / 64 ≠ k / 64 → t.secPoison q = s.secPoison q) ∧
          (s.shielded k = false → k % 256 / 64 * 64 < (s.blockOf (k / 256)).length → ∀ q, q / 256 = k / 256 → t.secPoison q = true) ∧
          (∀ q, q / 256 ≠ k / 256 → t.secPoison q = s.secPoison q) ∧ ∃ e, t.errors = s.errors ++ [e] ∧ e.event = 0x10)) ∧
    (s.chRetired.contains (die.toNat, ch.toNat) = false → ∃ t, exec (.hbmRefresh die ch) s = .next t ∧ t = { s with hbm := t.hbm } ∧
      (t.hbmOf (die.toNat * 64 + ch.toNat)).refreshed = s.clk) ∧
    exec .cmpctlSync s = .next { s with cmp := { s.cmp with busy := true } } ∧
    (s.cmp.busy = true → exec .cmpctlSyncDone s = .next { s with cmp := { s.cmp with cached := [], busy := false } })

/-! ## Events: engines, collectives, the Landing, queues -/

namespace Sys2Proof.Claims

/-- The part `k` of a COPY of `n` bytes from `src` to `dst` in the scratchpad (R147): its offset and bytes, those of one 256-byte line of the
destination, and the number of parts; where source and destination overlap it has one part. -/
def copySpan (dst src n k : Nat) : Nat × Nat × Nat :=
  if src < dst + n ∧ dst < src + n then (0, n, 1)
  else
    let lo := max dst (256 * (dst / 256 + k))
    (lo - dst, min (dst + n) (256 * (dst / 256 + k + 1)) - lo, (dst + n - 1) / 256 - dst / 256 + 1)

/-- A scratchpad byte of a block. -/
def scrAt (s : State) (bi o : Nat) : Byte := ((s.block bi).scrByte o).1

/-- The first `n` bytes from `src` now stand from `dst` on in the scratchpad of a block, and its other bytes are as before; a byte whose
source lies in the destination is the source's before, or the one now there (R318). -/
def Copied (s t : State) (bi dst src n : Nat) : Prop :=
  (∀ i < n, scrAt t bi (dst + i) = scrAt s bi (src + i) ∨
    (dst ≤ src + i ∧ src + i < dst + n ∧ scrAt t bi (dst + i) = scrAt t bi (src + i))) ∧
  ∀ o, o < dst ∨ dst + n ≤ o → scrAt t bi o = scrAt s bi o

end Sys2Proof.Claims

/-- Engine events (R106, R139, R140, R145, R147, R319, R321, R344, R407): a COPY in the scratchpad copies line by line and completes with the
last of them, its tag ready, its locks released and its counter lower; a failed one has copied a prefix of the part that failed and leaves
its tag in error with its record; a COPYM's bytes reach a receiver and count one arrival there; a table takes a slot, unless a later one
of its generation has it; the matrix engine's entries are granted, and promoted while they have not been; a COLL whose pairing lacks a
member too long fails; a collective group's words are written.

How much a failed operation has written of its part is free (log 12), and which value an overlapping COPY reads (log 47); that it acts a
line at a time is the model's choice (log 4). -/
def Obligations.EngineEvents : Prop :=
  ∀ (s : State) (op : Nat) (o : EngOp), s.ops[op]? = some o →
    (∀ h d a b tag g, o.instr = .copy h true true d a b tag → o.tag = some g → o.engine ≤ 4 → o.block < s.blocks.length →
      (s.block o.block).life = .resident →
      let p := copySpan (o.val 0) (o.val 1) (o.val 2) o.done
      (s.opRuns o = true → o.done + 1 < p.2.2 → ∃ t, exec (.engineCompletion op) s = .next t ∧
        Copied s t o.block (o.val 0 + p.1) (o.val 1 + p.1) p.2.1 ∧ t.ops[op]? = some { o with done := o.done + 1 } ∧ t.waves = s.waves ∧
        SameBytes s t ∧ (t.block o.block).tags = (s.block o.block).tags ∧ (t.block o.block).tpend = (s.block o.block).tpend) ∧
      (s.opRuns o = true → p.2.2 ≤ o.done + 1 → ∃ t o', exec (.engineCompletion op) s = .next t ∧
        Copied s t o.block (o.val 0 + p.1) (o.val 1 + p.1) p.2.1 ∧
        (t.block o.block).tags = (s.block o.block).tags ||| tagBit g ∧ (t.block o.block).tpend = (s.block o.block).tpend &&& ~~~ tagBit g ∧
        (t.block o.block).terr = (s.block o.block).terr ∧ t.ops[op]? = some o' ∧ o'.life = .done ∧
        (∀ k x, some x ∈ (t.core k).locks → x.op ≠ op) ∧
        ∀ idx n, (s.wave o.wave).counted.find? (fun e => e.2.op == some op) = some (idx, n) → o.wave < s.waves.length →
          (t.wave o.wave).counter n.ctr = (s.wave o.wave).counter n.ctr - 1) ∧
      (∀ e done, o.failed = some e → s.opRuns { o with failed := none } = true → done ≤ p.2.1 → s.slotFor 1 (s.opCls o) = true →
        ∃ t o', exec (.failedOperation op done) s = .next t ∧ Copied s t o.block (o.val 0 + p.1) (o.val 1 + p.1) done ∧
        (t.block o.block).tags = (s.block o.block).tags ||| tagBit g ∧ (t.block o.block).terr = (s.block o.block).terr ||| tagBit g ∧
        (g, e) ∈ (t.block o.block).tagErr ∧ t.ops[op]? = some o' ∧ o'.life = .done)) ∧
    (∀ h d a b tag mask bar idx k r, o.instr = .copym h d a b tag mask bar → o.recv[idx]? = some (k, r) → s.opRuns o = true →
      o.arrived.getLsbD idx = false → o.data ≠ [] → o.data.length = o.val 2 → r < s.blocks.length → (s.block r).life = .resident →
      ((s.block r).bb.getD bar.toNat {}).expect ≠ 0 → ∃ t o', exec (.copymArrival op idx) s = .next t ∧
      (∀ i x, o.data[i]? = some x → scrAt t r (o.val 0 + i) = x.1) ∧
      Arrived ((s.block r).bb.getD bar.toNat {}) ((t.block r).bb.getD bar.toNat {}) ∧
      t.ops[op]? = some o' ∧ o'.arrived = o.arrived ||| 1#4 <<< idx) ∧
    (∀ e x, s.tableFor e = some (op, x) → e < expanderCount → ∃ t, exec (.tableSlotReplace e) s = .next t ∧
      (s.superseded op e x = false → t.expSlots e = loadSlot (s.expSlots e) x ∧ x ∈ t.expSlots e) ∧
      (s.superseded op e x = true → t.expSlots e = s.expSlots e) ∧ (∀ j, j ≠ e → t.expSlots j = s.expSlots j) ∧
      t.ops[op]? = some { o with slots := e :: o.slots }) ∧
    (∀ cl r, s.grantee cl = some r → ∃ t, exec (.reservationGrant cl) s = .next t ∧
      t.resvOf cl = (s.resvOf cl).map (fun x => if x.op == r.op then
        { x with run := true, granted := some s.clk, promo := x.promo || (x.granted.isNone && decide (x.posted + 65536 ≤ s.clk)) } else x) ∧
      ∀ k, k ≠ cl → t.resvOf k = s.resvOf k) ∧
    (∀ cl n r, (s.resvOf cl).find? (fun x => x.place == n) = some r → r.promo = false → r.granted = none → r.posted + 65536 ≤ s.clk →
      ∃ t, exec (.reservationPromote cl n) s = .next t ∧
      t.resvOf cl = (s.resvOf cl).map (fun x => if x.op == r.op then { x with promo := true } else x)) ∧
    (∀ ty cop ss ds (group : BitVec 6), s.ops = [o] → op = 0 → collOf o = some (ty, cop, ss, ds, group.toNat) → o.engine = 28 →
      o.life = .running → o.arrived = 0 → o.failed = none → o.core < 160 →
      (s.collGroup group.toNat).1.getLsbD (48 + dieOf o.core) = true →
      (∃ d < 8, d ≠ dieOf o.core ∧ (s.collGroup group.toNat).1.getLsbD (48 + d) = true) →
      bits (s.collGroup group.toNat).2 31 0 ≠ 0 → o.since + bits (s.collGroup group.toNat).2 31 0 * 1024 ≤ s.clk →
      exec (.collJoinTimeout group) s = .next { s with ops := [{ o with failed := some ⟨28, 4, 0, 0⟩ }] }) ∧
    (∀ (group : BitVec 6) (val : DWord), (∃ t, exec (.collGroupWrite group 0 val) s = .next t ∧ t = { s with coll := t.coll } ∧
        t.collGroup group.toNat = (val &&& 0x80FFFFFFE0000000, (s.collGroup group.toNat).2) ∧
        ∀ k, k ≠ group.toNat → t.collGroup k = s.collGroup k) ∧
      (∃ t, exec (.collGroupWrite group 1 val) s = .next t ∧ t = { s with coll := t.coll } ∧
        t.collGroup group.toNat = ((s.collGroup group.toNat).1, val &&& 0xFFFFFFFF) ∧
        ∀ k, k ≠ group.toNat → t.collGroup k = s.collGroup k))

/-- The Landing's enable and disable, and the queue events (R86, R89, R90, R149, R150): enabling with a heap that fits is pending until
the line map is zero, disabling until every entry is INV; a pointer write sets TAIL and COMMIT; the oldest reserved record goes to its
home whole and COMMIT advances. -/
def Obligations.LandingAndQueueEvents : Prop :=
  ∀ (s : State) (val : DWord) (fn : BitVec 5) (q : BitVec 8) (r : List (Nat × Byte)) (rest : List (List (Nat × Byte))),
    let l := s.lreg
    let size := bits val 62 56
    let base := bits val 51 29 * 2 ^ 29
    let x := s.queue fn.toNat q.toNat
    (val.getLsbD 63 = true →
      (l.en = true ∨ l.onpend = true ∨ l.offpend = true → exec (.landingEnable val) s = .next s) ∧
      (l.en = false → l.onpend = false → l.offpend = false → exec (.landingEnable val) s =
        .next { s with lreg := { l with size := size, base := base, onpend := s.heapFits size base } })) ∧
    (l.onpend = true → ∃ t, exec .landingInitDone s = .next t ∧ t.lreg = { l with onpend := false, en := true } ∧
      t.land.tags = s.land.tags ∧
      ∀ k, k < 2 ^ 40 → t.byte k = if l.base + 63 * l.size * 2 ^ 24 ≤ paOfKey k ∧ paOfKey k < l.base + l.size * 2 ^ 30 then 0 else s.byte k) ∧
    (val.getLsbD 63 = false →
      (l.onpend = true ∨ l.offpend = true → exec (.landingDisable val) s = .next s) ∧
      (l.onpend = false → l.offpend = false → l.en = true →
        exec (.landingDisable val) s = .next { s with lreg := { l with offpend := true } })) ∧
    (l.offpend = true → ∃ t, exec .landingDisableDone s = .next t ∧ t.lreg = { l with offpend := false, en := false } ∧
      (∀ i, (t.tagAt i).state = 0) ∧ t.mem = s.mem) ∧
    (∃ t, exec (.queuePointerWrite fn q val) s = .next t ∧ t = { s with queues := t.queues } ∧
      t.queue fn.toNat q.toNat = { x with tail := val.extractLsb' 32 32, commit := val.extractLsb' 32 32, pend := [] } ∧
      ∀ k, k ≠ 256 * fn.toNat + q.toNat → Sparse.get {} t.queues k = Sparse.get {} s.queues k) ∧
    (x.pend = r :: rest → (∀ kv ∈ r, kv.1 < windowTop) → s.heapInForce = false → s.cmp.stored = [] →
      ∃ t, exec (.queueCommit fn q) s = .next t ∧ t.queue fn.toNat q.toNat = { x with commit := x.commit + 1, pend := rest } ∧
      ∀ k, k < windowTop → t.byte k = (lastOf r k).getD (s.byte k))

/-! ## Events: launches, dispatch, spawned waves, the governor -/

namespace Sys2Proof.Claims

/-- Wave `wi` is a new wave of a role's block (R157): all its lanes run at the role's entry, its K registers hold the argument words,
every other register is 0, and nothing of it is outstanding. -/
def FreshWave (s t : State) (wi gi bi : Nat) (e : Nat × Nat × Nat) : Prop :=
  let r := (s.grid gi).record
  let w := t.wave wi
  w.block = bi ∧ w.life = .running ∧ w.role = .ofNat 4 e.1 ∧ w.launched = 0xFFFFFFFF ∧ w.exited = 0 ∧ w.slotA.valid = true ∧
    w.slotA.path.mask = 0xFFFFFFFF ∧ w.slotA.path.pc = .ofNat 64 (recEntry r + recEntoff r e.1) ∧ w.slotB.valid = false ∧ w.wb = 0 ∧
    w.frames = [] ∧ w.counted = [] ∧
    (∀ i, (s.grid gi).args.length ≤ 64 → i < 64 → w.reg (kKey i) = (s.grid gi).args.getD i 0) ∧ ∀ k, k < 8576 → w.reg k = 0

end Sys2Proof.Claims

/-- Launches and dispatch (R119, R148, R154-R158, R163-R173, R381-R385, R444): TAIL submits host entries, LQCTL sets a queue's fields, the
hub takes the next entry and adds a grid or rejects it, by VERSION and ASID first; a gang of one block is placed with its waves as R157
gives them; a range is reserved after 4,096 clk for the gang that is watched; an old berth sails and a sailed wave is placed with its
lanes' payloads; a block and a grid end; the governor is enabled, evaluated and disabled, which asks every block of its stages to end.

Where blocks, waves and context areas are placed is the model's choice (log 24, log 33). -/
def Obligations.LaunchEvents : Prop :=
  ∀ (s : State) (fn : BitVec 5) (val : DWord),
    (∀ tail, fn.toNat < 17 → ∃ t, exec (.lqTailWrite fn tail) s = .next t ∧ t = { s with lq := t.lq } ∧
      (let q := s.lqOf fn.toNat
       let u := t.lqOf fn.toNat
       u.tail = tail ∧ u.head = q.head ∧ (q.open' = false → u.subs = q.subs ∧ u.err = q.err) ∧
       (q.open' = true → u.subs = firstHosts (min (tail - q.head).toNat (2 ^ q.log2n)) q.subs ++ List.replicate (min (tail - q.head).toNat (2 ^ q.log2n) - q.hostCount) .host ∧
         u.err = (q.err || decide (2 ^ q.log2n < (tail - q.head).toNat)))) ∧
      ∀ k, k ≠ fn.toNat → t.lqOf k = s.lqOf k) ∧
    (fn.toNat < 17 → val.getLsbD 63 = true → ∃ t, exec (.lqctlEnable fn val) s = .next t ∧ t = { s with lq := t.lq } ∧
      (t.lqOf fn.toNat).en = true ∧ (t.lqOf fn.toNat).dev = val.getLsbD 62 ∧ (t.lqOf fn.toNat).asid = val.extractLsb' 16 16 ∧
      (t.lqOf fn.toNat).log2n = bits val 4 0 ∧ ∀ k, k ≠ fn.toNat → t.lqOf k = s.lqOf k) ∧
    (∀ va asid rest s1, (s.lqOf fn.toNat).subs = .dev va asid :: rest → s1 = s.setLq fn.toNat { s.lqOf fn.toNat with subs := rest } →
      (va.toNat % 64 ≠ 0 → ∃ t, exec (.launchAccept fn) s = .next t ∧ (t.lqOf fn.toNat).subs = rest ∧
        (t.lqOf fn.toNat).err = true ∧ t.grids = s.grids) ∧
      (∀ s2 s3 bs g, va.toNat % 64 = 0 → s1.hubRead fn.toNat asid va.toNat 256 = .ok s2 bs → s2.judge fn.toNat asid (dwords bs) = .accept s3 g →
        exec (.launchAccept fn) s = .next { s3 with grids := s3.grids ++ [g] } ∧ g.record = dwords bs ∧ g.vm = fn.toNat ∧ g.asid = asid)) ∧
    (∀ vm asid r, (recVersion r ≠ 1 → s.judge vm asid r = .reject s 1) ∧
      (recVersion r = 1 → recAsid r ≠ asid ∨ recBad r = true → s.judge vm asid r = .reject s 2)) ∧
    (∀ core g k x area, s.dispatchAt core = some ⟨.gang g k, [x], [area]⟩ → g < s.grids.length → ∃ t, exec (.blockPlace core) s = .next t ∧
      t.blocks.length = s.blocks.length + 1 ∧ (t.block s.blocks.length).grid = g ∧ (t.block s.blocks.length).life = .resident ∧
      (t.block s.blocks.length).core = x.2.2.core ∧ (t.grid g).placed = (s.grid g).placed + 1 ∧
      (∀ j e, (recWaveList (s.grid g).record)[j]? = some e → FreshWave s t (s.waves.length + j) g s.blocks.length e) ∧
      ∀ j < s.waves.length, t.wave j = s.wave j) ∧
    (∀ (cls : BitVec 2) x w, s.topGang cls.toNat = some w → (Sparse.get [] s.gangs cls.toNat).find? (fun y => y.isFor w) = some x →
      x.cores = [] → x.since + 4096 ≤ s.clk → exec (.gangReserve cls) s =
        .next { s with gangs := Sparse.set [] s.gangs cls.toNat ((Sparse.get [] s.gangs cls.toNat).map fun y =>
          if y = x then { x with cores := s.targetOf w } else y) }) ∧
    (∀ core i b, (s.core core).berths.find? (fun y => y.1 == i) = some (i, b) → b.sailed = false →
      b.since + (if recTimer (s.grid b.grid).record b.desc = 0 then 2048 else recTimer (s.grid b.grid).record b.desc) ≤ s.clk →
      ∃ t, exec (.berthSail core i) s = .next t ∧ berthAt t core i = some { b with sailed := true, sailedAt := s.clk } ∧
      t.sailed = s.sailed ++ [(core, i)] ∧ t.waves = s.waves ∧ t.blocks = s.blocks) ∧
    (∀ idx core i b p area, s.sailed[idx]? = some (core, i) → (s.core core).berths.find? (fun y => y.1 == i) = some (i, b) →
      s.frozen b.grid (recBclass (s.grid b.grid).record b.desc) = false → s.fenced core = false → b.lanes.length ≤ 32 →
      placeBlock (s.rooms [core]) core { rings := [ringSize (recBring (s.grid b.grid).record b.desc)] } = some p →
      s.allocate (s.grid b.grid).vm [blockUnits 0 0 + waveUnits (recBspill (s.grid b.grid).record b.desc)
        (recBsplit (s.grid b.grid).record b.desc) (ringSize (recBring (s.grid b.grid).record b.desc))] = some [area] →
      ∃ t, exec (.sailedWavePlace idx) s = .next t ∧ t.sailed = s.sailed.eraseIdx idx ∧ (t.block s.blocks.length).spawned = true ∧
      (t.block s.blocks.length).core = core ∧ berthAt t core i = none ∧
      (let w := t.wave s.waves.length
       w.block = s.blocks.length ∧ w.spawned = true ∧ w.slotA.path.pc = b.entry ∧
       (∀ l < 32, w.launched.getLsbD l = decide (l < b.lanes.length) ∧ w.slotA.path.mask.getLsbD l = decide (l < b.lanes.length)) ∧
       ∀ l < b.lanes.length, ∀ j < 4, w.reg (ringKey j l) = (b.lanes.getD l []).getD j 0)) ∧
    (∀ bi, bi < s.blocks.length → s.gov = [] →
      let b := s.block bi
      b.life = .resident → b.ending = true → b.halted = false → b.svc = false → b.spawned = false →
      (∀ o ∈ s.ops, o.block = bi → o.life ≠ .running) → b.grid < s.grids.length → ∃ t, exec (.blockEnd bi) s = .next t ∧
      (t.block bi).life = .ended ∧ (t.grid b.grid).ended = (s.grid b.grid).ended + 1 ∧ t.waves = s.waves ∧
      ∀ k, k ≠ bi → t.block k = s.block k) ∧
    (∀ gi, gi < s.grids.length → s.gridOver gi = true →
      (recDone (s.grid gi).record = 0 → ∃ t, exec (.gridEnd gi) s = .next t ∧ (t.grid gi).life = .ended ∧ t.mem = s.mem ∧
        ∀ k, k ≠ gi → t.grid k = s.grid k) ∧
      (∀ s2 ls done, recDone (s.grid gi).record ≠ 0 → done = s.updGrid gi (fun g => { g with life := .ended, triangles := [] }) →
        done.hubPlace (s.grid gi).vm (s.grid gi).asid .engWrite (recDone (s.grid gi).record) 16 = .ok s2 ls →
        (ls.map Loc.key).Nodup → (∀ l ∈ ls, l.key < windowTop) → s2.heapInForce = false → s2.cmp.stored = [] →
        ∃ t, exec (.gridEnd gi) s = .next t ∧ t.msi = s2.msi ++ [((s.grid gi).vm, 1)] ∧
        ls.map (fun l => t.byte l.key) =
          lowBytes 8 ((if (s.grid gi).killed then 5 else 0) * 2 ^ 56 + (s.grid gi).ended % 2 ^ 32) ++ List.replicate 8 0)) ∧
    (let v := s.govOf fn.toNat
     (fn.toNat < 17 → val.getLsbD 63 = true → ∃ t, exec (.govctlEnable fn val) s = .next t ∧ t = { s with gov := t.gov } ∧
       t.govOf fn.toNat = { v with en := true, pool := if v.en then v.pool else bits val 39 32, period := bits val 31 16,
                                   last := if v.en then v.last else s.clk }) ∧
     (v.en = true → v.last + 64 * max 1 v.period ≤ s.clk → ∃ t, exec (.governorEvaluation fn) s = .next t ∧
       (t.govOf fn.toNat).last = s.clk ∧ t.mem = s.mem ∧ t.waves = s.waves ∧ t.grids = s.grids) ∧
     (fn.toNat < 17 → val.getLsbD 63 = false → ∃ t, exec (.govctlDisable fn val) s = .next t ∧ (t.govOf fn.toNat).en = false ∧
       ∀ i < s.grids.length, (s.grid i).life = .active → (s.grid i).vm = fn.toNat → recKind (s.grid i).record = 2 →
         (t.grid i).stopped = true ∧ ∀ b ∈ t.blocks, b.grid = i → b.stands = true → b.retreq = true))

/-! ## Events: the Window Ferry, pre-emption, service cores, rasterisers -/

/-- The Ferry and pre-emption (R68, R183, R187, R188, R191, R391-R394): in a slot of its class a frame record or a spilled register is written to
its slot and its work leaves the Ferry; a refill completes the RET that waits, from the ring or from the Ferry's buffer; a record of the
overflow region comes back on chip; a request halts every block that it selects, the sailed waves of the berths of its grids among them,
and while one is busy only sets its fields; a saved block leaves its core.

The layout of context areas is the model's choice (log 33). -/
def Obligations.FerryAndPreemptionEvents : Prop :=
  ∀ (s : State) (core wi i k key : Nat) (f : Frame) (s1 : State),
    let w := s.wave wi
    let N := w.ringN
    (s1.heapInForce = false → s1.cmp.stored = [] → key + 128 ≤ windowTop → s.slotFor 1 (s.block w.block).cls.val = true →
      (s.nextJob core = some (i, .record wi k f) → s.ferryPlace wi .spill [w.recordVa k] = .ok s1 [key] →
        ∃ t, exec (.spillWrite core) s = .next t ∧ (t.core core).ferry = (s1.core core).ferry.eraseIdx i ∧
        (List.range 16).map (fun n => t.byte (key + n)) = wordsBytes (frameRecWords f) ∧
        ∀ a, a < windowTop → a < key ∨ key + 16 ≤ a → t.byte a = s1.byte a) ∧
      (∀ n sb r, s.nextJob core = some (i, .spill wi n sb [r]) → s.ferryPlace wi .spill [w.slotVa sb 0] = .ok s1 [key] →
        ∃ t, exec (.spillWrite core) s = .next t ∧ (t.core core).ferry = (s1.core core).ferry.eraseIdx i ∧
        (∀ l < 32, BitVec.ofNat 32 (leNat ((List.range 4).map fun j => t.byte (key + 4 * l + j))) = r.1.getD l 0) ∧
        ∀ a, a < windowTop → a < key ∨ key + 128 ≤ a → t.byte a = s1.byte a)) ∧
    (w.frames.getLast? = some f → w.refilling = true → s.onCore wi = true → w.onchip ≠ 0 → w.unwind = none → wi < s.waves.length →
      (f.spilled = false → ∃ t, exec (.refill wi) s = .next t ∧ OnlyWave s t wi ∧ (t.wave wi).refilling = false ∧
        (t.wave wi).frames = w.frames.dropLast ∧ (t.wave wi).wb = (w.wb + N - f.size % N) % N ∧
        ((t.wave wi).path w.refillB).pc = f.retpc ∧ (t.wave wi).regs = w.regs) ∧
      (∀ rs, f.spilled = true → s.bufferedFrame wi (w.frames.length - 1) = some rs → rs.length = f.size → f.size ≤ N → w.wb < N →
        ∃ t, exec (.refill wi) s = .next t ∧ OnlyWave s t wi ∧ (t.wave wi).refilling = false ∧
        (t.wave wi).wb = (w.wb + N - f.size % N) % N ∧ ((t.wave wi).path w.refillB).pc = f.retpc ∧
        (t.wave wi).frames = w.frames.dropLast ∧
        ∀ j < f.size, ∀ l < 32, (t.wave wi).reg (ringKey (((t.wave wi).wb + j) % N) l) = (rs.getD j ([], 0)).1.getD l 0)) ∧
    (∀ key2, wi < s1.waves.length → w.frames.length - w.onchip = k → k ≠ 0 → w.onchip < 16 → s.onCore wi = true → w.unwind = none →
      (∀ j ∈ (s.core (s.block w.block).core).ferry, ∀ x, j ≠ .record wi k x) →
      s.slotFor 1 (s.block w.block).cls.val = true →
      s.ferryPlace wi .refill [w.recordVa k, w.recordVa k + 8] = .ok s1 [key, key2] →
      ∃ t, exec (.frameRecordFetch wi) s = .next t ∧ (t.wave wi).onchip = w.onchip + 1 ∧
      (t.wave wi).frames[k - 1]? = some (frameOfWords (s1.word64 key) (s1.word64 key2)) ∧ (t.wave wi).regs = w.regs ∧ t.mem = s1.mem) ∧
    (∀ (fn : BitVec 5) (val : DWord), fn.toNat < 17 → val.getLsbD 63 = true →
      let p := (s.pmtOf fn.toNat).fields val
      let cls := if p.scope then some p.cls else none
      let sel := (s.sailAffected (p.target fn.toNat) cls).selection (p.target fn.toNat) cls
      ((s.pmtOf fn.toNat).act ≠ none → exec (.preemptRequest fn val) s = .next (s.setPmt fn.toNat p)) ∧
      ((s.pmtOf fn.toNat).act = none → ∃ t, exec (.preemptRequest fn val) s = .next t ∧
        t.pmtOf fn.toNat = { p with sel := sel, act := if sel = [] then none else some (p.target fn.toNat, cls) } ∧
        ∀ b ∈ sel, (t.block b).halted = true)) ∧
    (∀ (fn : BitVec 5) bi s2 ls, (s.pmtOf fn.toNat).sel.contains bi = true → (s.block bi).life = .resident → (s.block bi).halted = true →
      (s.block bi).saveFault = none → s.rasterPending bi = false → bi < s2.blocks.length → s.slotFor 1 (s.block bi).cls.val = true →
      s1 = s.release (s.block bi).core (s.block bi).cls.val .system →
      s1.placeAll (clusterOf (s.block bi).core) (s.block bi).cls.val ⟨(s.grid (s.block bi).grid).vm, 0, true, false⟩ .engWrite
        ((s1.saveSectors bi).map Prod.fst) = .ok s2 ls →
      ∃ t, exec (.preemptSaveDone fn bi) s = .next t ∧ (t.block bi).life = .saved ∧ (t.pmtOf fn.toNat).sel.contains bi = false)

/-- The service cores (R144, R213, R399, R414, R415): a handler starts for the oldest trapped wave of its cluster; RESUME lets a wave that
passes its checks run again and kills the block of one whose split stack is too long, KILLWAVE ends it, KILLBLOCK kills its block with KILLED and a handler's own end with NO_HANDLER; WSYNC ends when
the wave has no Ferry work; a lock of a killed block is removed; a Landing set is selected.

Where the windows of a handler lie is free (log 31). -/
def Obligations.ServiceEvents : Prop :=
  ∀ (s : State) (cl wi : Nat),
    let v := s.svcAt cl
    (∀ rest s1 bs area, s.svcOf cl = wi :: rest → v.handled = none → (s.block (s.wave wi).block).halted = false →
      let vm := (s.grid (s.block (s.wave wi).block).grid).vm
      let img : DWord := Sparse.get 0 s.svcImg vm
      let r := dwords bs
      wi < s1.waves.length → s1.waves = s.waves → img.getLsbD 63 = true →
      { s with svcQueue := Sparse.set [] s.svcQueue cl rest }.svcFetch cl vm (bits img 55 2 * 4) 256 = .ok s1 bs →
      handlerBad (bits img 55 2 * 4) r = false → recArgw r = 0 → recPwmask r = 0 →
      (s1.keepRecord vm (bits img 55 2 * 4) bs).allocate vm [recUnits r] = some [area] →
      ∃ t, exec (.serviceHandlerStart cl) s = .next t ∧ (t.svcAt cl).handled = some wi ∧ (t.wave wi).life = .handled ∧
      t.waves.length = s.waves.length + 1 ∧ (t.block (t.wave s.waves.length).block).svc = true ∧
      (t.wave s.waves.length).slotA.path.pc = .ofNat 64 (recEntry r + recEntoff r 0) ∧
      (t.wave s.waves.length).reg (kKey 0) = .ofNat 32 (waveWinVa cl) ∧ (t.wave s.waves.length).reg (kKey 2) = .ofNat 32 (inspectVa cl)) ∧
    (v.clears = [] → v.selects = [] → v.handled = some wi → wi < s.waves.length → wi ∉ (s.block v.block).waves →
      (∀ r isB, v.cmd = some 1 → (s.wave wi).fwait = false → (s.wave wi).split = [] → (s.wave wi).resumable = true →
        (s.wave wi).trap = some r → ((s.wave wi).slot isB).valid = true → (s.wave wi).depth ≤ ((s.wave wi).path isB).depth →
        (s.wave wi).launched &&& ~~~ (s.wave wi).exited ≠ 0 →
        ∃ t, exec (.resume cl) s = .next t ∧
        t.wave wi = { (s.wave wi).setSlot r.slotB { (s.wave wi).slot r.slotB with waiting := false, held := none } with
          life := .running, trap := none } ∧ (t.svcAt cl).handled = none) ∧
      (v.cmd = some 1 → (s.wave wi).splitMax < (s.wave wi).split.length → (s.wave wi).fwait = false →
        exec (.resume cl) s = .next ((s.endHandler cl).kill (s.wave wi).block 0x42)) ∧
      (v.cmd = some 2 → ∃ t, exec (.killwave cl) s = .next t ∧ (t.wave wi).life = .ended ∧ (t.svcAt cl).handled = none) ∧
      (v.cmd = some 3 → exec (.killblock cl) s = .next (s.kill (s.wave wi).block 0x43)) ∧
      (∀ n, v.cmd = some n → n = 0 ∨ 4 < n → exec (.killblock cl) s = .next (s.kill (s.wave wi).block 0x45)) ∧
      (v.cmd = some 4 → (s.core (s.block (s.wave wi).block).core).jobsOf wi = [] →
        exec (.windowWsync cl) s = .next (s.setSvc cl { v with cmd := none }))) ∧
    (∀ core entry k, clusterOf core = cl → (core % 4, entry) ∈ v.clears → (s.core core).locks.getD entry none = some k →
      (∃ cause, (s.block (((s.ops[k.op]?).map EngOp.block).getD k.block)).life = .killed cause) →
      ∃ t, exec (.rangeLockEntryClear core entry) s = .next t ∧ (t.core core).locks.getD entry none = none ∧
      (∀ e, e ≠ entry → (t.core core).locks.getD e none = (s.core core).locks.getD e none) ∧
      (t.svcAt cl).clears = v.clears.erase (core % 4, entry) ∧ t.mem = s.mem) ∧
    (∀ val rest, v.selects = val :: rest → ∃ t, exec (.landingSetSelect cl val) s = .next t ∧ t = { s with svc := t.svc } ∧
      t.svcAt cl = { v with
        selects := rest
        sel := val
        snap := (List.range 16).map fun j => s.tagAt ((bits val 18 16 * 2 ^ 15 + bits val 14 0) * 16 + j) })

/-- Rasterisers (R363, R368, R370): one takes the oldest triangle of a wave that it has not taken, after its clear; when every wave's
emission is over, every triangle rasterised and every clear done, each raster barrier of the grid counts one arrival. -/
def Obligations.RasterEvents : Prop :=
  ∀ (s : State) (gi wave : Nat) (q : BitVec 4), gi < s.grids.length →
    let g := s.grid gi
    g.rasters = true → g.rasterFault = [] →
    (∀ t0 s1, g.triangles = [t0] → t0.wave = wave → t0.left.getLsbD q.toNat = true → s1.grids = s.grids →
      s.slotFor 1 (recClass g.record) = true →
      (g.rasClear = false ∨ g.cleared.getLsbD q.toNat = true → s.rasTriangle g q.toNat t0 = .ok s1 () →
        ∃ t, exec (.triangleRasterise gi wave q) s = .next t ∧ t.mem = s1.mem ∧ (t.grid gi).triangles =
          (if t0.left &&& ~~~ (1#16 <<< q.toNat) = 0 then [] else [{ t0 with left := t0.left &&& ~~~ (1#16 <<< q.toNat) }])) ∧
      (g.rasClear = true → g.cleared.getLsbD q.toNat = false → s.rasClearAll g q.toNat = .ok s1 () →
        ∃ t, exec (.triangleRasterise gi wave q) s = .next t ∧ t.mem = s1.mem ∧ (t.grid gi).triangles = [t0] ∧
        (t.grid gi).cleared = g.cleared ||| 1#16 <<< q.toNat)) ∧
    (g.triangles = [] → g.rasterDone = false → s.emissionOver gi = true → g.rasClear = false ∨ g.cleared = 0xFFFF →
      ∃ t : State, exec (.rasterDone gi) s = .next t ∧ (t.grid gi).rasterDone = true ∧ (t.grid gi).gb.length = g.gb.length ∧
      (∀ (n : Nat) (b : Barrier), g.gb[n]? = some b → if b.raster = true ∧ b.expect ≠ 0 then ∃ b', (t.grid gi).gb[n]? = some b' ∧ Arrived b b'
        else (t.grid gi).gb[n]? = some b) ∧ ∀ k, k ≠ gi → t.grid k = s.grid k)

/-! ## Events: the device, its links, the host, Umcor -/

/-- Retirement, errors, reset, power and links (R401, R403, R405, R408, R409, R412, R413, R417): a fenced cluster keeps no block and no
berth; a channel's retirement is recorded; a fatal error stops the device with its cause; a reset leaves nothing resident, applies the
retirements and keeps all storage but that of dies which apply one, or all of it after a loss of power; power off keeps retirement
records and flash; links come up at the rates and versions both ends have.

What storage holds without power is the model's choice (log 1, log 27). -/
def Obligations.DeviceEvents : Prop :=
  ∀ (s : State) (cl : Nat) (die cause : BitVec 3) (ch : BitVec 6) (port : BitVec 4) (status : DWord) (width rate theirs : Nat) (flit : Bool),
    (cl < 40 → s.clFenced.contains cl = false → s.clRetired.contains cl = false → ∃ t, exec (.clusterFence cl) s = .next t ∧
      t.clFenced = s.clFenced ++ [cl] ∧ t.clPending = s.clPending ++ [cl] ∧ t.mem = s.mem ∧
      (∀ k, clusterOf k = cl → (t.core k).berths = []) ∧
      ((∀ k, (s.svcAt k).handled ≠ none → (s.block (s.svcAt k).block).svc = true) →
        ∀ b < s.blocks.length, (s.block b).life = .resident → (s.block b).svc = false → clusterOf (s.block b).core = cl →
        ∃ c, (t.block b).life = .killed c)) ∧
    (s.chPending.contains (die.toNat, ch.toNat) = false → s.chRetired.contains (die.toNat, ch.toNat) = false →
      ∃ t, exec (.channelRetirement die ch) s = .next t ∧ t.chPending = s.chPending ++ [(die.toNat, ch.toNat)] ∧ t.mem = s.mem ∧
      t.waves = s.waves ∧ ∃ e, t.errors = s.errors ++ [e] ∧ e.event = 0x31) ∧
    (∃ t, exec .deviceReset s = .next t ∧ t.waves = [] ∧ t.blocks = [] ∧ t.grids = [] ∧ t.ops = [] ∧ t.off = false ∧ t.fatal = 0 ∧
      t.x = State.reset.x ∧ t.clRetired = s.clRetired ++ s.clPending ∧ t.chRetired = s.chRetired ++ s.chPending ∧ t.clPending = [] ∧
      t.chPending = [] ∧ t.um.flash = s.um.flash ∧
      ∀ k, k < windowTop → t.byte k = if k < 2 ^ 40 ∧ (s.off = true ∨ ∃ c ∈ s.chPending, c.1 = k / 2 ^ 37) then 0 else s.byte k) ∧
    (s.fatal = 0 → 1 ≤ cause.toNat → cause.toNat ≤ 4 → ∃ t, exec (.fatalError cause) s = .next t ∧ t.fatal = cause.toNat ∧
      t.waves = s.waves ∧ t.blocks = s.blocks ∧ (∃ e, t.errors = s.errors ++ [e] ∧ e.event = 0x70) ∧
      (s.dumpEn = false → t.mem = s.mem ∧ t.dumped = s.dumped)) ∧
    (∃ t, exec .devicePowerOff s = .next t ∧ t.off = true ∧ t.waves = [] ∧ t.clRetired = s.clRetired ∧ t.chRetired = s.chRetired ∧
      t.clPending = s.clPending ∧ t.chPending = s.chPending ∧ t.um.flash = s.um.flash ∧ ∀ k, k < 2 ^ 40 → t.byte k = 0) ∧
    exec (.pcieLinkTraining false width rate flit) s = .next { s with pcie := {} } ∧
    (width = 1 ∨ width = 4 ∨ width = 8 ∨ width = 16 → 1 ≤ rate → rate ≤ 7 → exec (.pcieLinkTraining true width rate flit) s =
      .next { s with pcie := { up := true, width := width, rate := rate, flit := decide (6 ≤ rate) || flit } }) ∧
    (∃ t, exec (.izlynLinkTraining port theirs) s = .next t ∧ t.mem = s.mem ∧
      (Sparse.get {} t.ports port.toNat : Port) = (if theirs = 0 then {} else ⟨true, min 2 theirs⟩) ∧
      ∀ k, k ≠ port.toNat → Sparse.get {} t.ports k = Sparse.get {} s.ports k) ∧
    (∃ t e, exec (.pciePortError status) s = .next t ∧ t = { s with errors := s.errors ++ [e] } ∧ e.event = 0x50 ∧ e.detail = status) ∧
    (s.um.lost = false → ∃ t e, exec .umcorFailover s = .next t ∧ t.um = { s.um with active := 1 - s.um.active, lost := true } ∧
      t.errors = s.errors ++ [e] ∧ e.event = 0x60 ∧ t.mem = s.mem) ∧
    (s.um.lost = true → s.fatal = 0 → ∃ t, exec .umcorFailover s = .next t ∧ t.fatal = 2)

namespace Sys2Proof.Claims

/-- A function that the host reaches (R403, R409). -/
def Reached (s : State) (fn : BitVec 5) : Prop := fn.toNat < 17 ∧ s.pcie.up = true ∧ (fn = 0 ∨ s.um.booted = true)

/-- Storage where a write at its homes is just that: no heap in force, no line stored compressed. -/
def PlainStore (s : State) : Prop := s.heapInForce = false ∧ s.cmp.stored = []

/-- A command of a function's mailbox is to be carried out and not denied (R416). -/
def MbCommand (s : State) (fn : BitVec 5) (cmd : Nat) (pfOnly : Bool) : Prop :=
  fn.toNat < 17 ∧ (s.mbOf fn.toNat).busy = true ∧ (s.mbOf fn.toNat).result = none ∧ (s.mbOf fn.toNat).runCmd = cmd ∧
    s.um.booted = true ∧ (pfOnly = true → fn = 0)

/-- A command of a function's mailbox is to be carried out. -/
def MbAsked (s : State) (fn : BitVec 5) (cmd : Nat) : Prop :=
  fn.toNat < 17 ∧ (s.mbOf fn.toNat).busy = true ∧ (s.mbOf fn.toNat).result = none ∧ (s.mbOf fn.toNat).runCmd = cmd

/-- A command ends with a status other than OK: nothing else changes. -/
def MbRefused (s : State) (o : Host.Outcome State Fault Refusal) (fn : BitVec 5) (status : Nat) : Prop :=
  o = .next (s.setMb fn.toNat { s.mbOf fn.toNat with result := some (status, 0) })

/-- The atomics of a peer (R405, R312) by their code, with their type and width. -/
def peerAtomics : List (Nat × AtomOp × Ty × Nat) :=
  ([(2, .add), (3, .min), (4, .max), (5, .and), (6, .or), (7, .xor), (8, .exch), (9, .cas)] : List (Nat × AtomOp)).flatMap
      (fun x => [(x.1, x.2, .n32, 4), (x.1, x.2, .b64, 8)])
    ++ [(10, .faddF32, .f32, 4), (11, .faddB2, .n32, 4), (12, .min, .i32, 4), (13, .max, .i32, 4)]

/-- A command ends with a result, storage but for a reply of `bs` in the buffer as before. -/
def MbEnds (s t : State) (fn : BitVec 5) (status n : Nat) (bs : List Byte) : Prop :=
  t.mbOf fn.toNat = { s.mbOf fn.toNat with result := some (status, n) } ∧
    ∀ k, k < windowTop → t.byte k =
      if hostBase + (s.mbOf fn.toNat).addr ≤ k then (bs[k - (hostBase + (s.mbOf fn.toNat).addr)]?).getD (s.byte k) else s.byte k

end Sys2Proof.Claims

/-- Host and peer accesses, register writes and the mailbox (R22, R134, R403, R406, R408-R410, R416): a BAR2 access reads or writes the
function's VM at its VAs, and one whose translation fails is refused; a peer's load, store or atomic acts on this device's storage at its
home, and one that leaves present storage is refused; a register write that its function does not reach or that names no register is
ignored, one of a VMROOT register, FQPTR or MBCMD sets the fields of its rule, and GO starts a command unless one is under way; each mailbox
command ends with its status and reply, DENIED or BUFFER where R416 says so, and the reply clears BUSY and raises vector 4.

The reply and the interrupt list are the model's own fields (log 2); host addresses are below 2^52 (log 38). -/
def Obligations.HostEvents : Prop :=
  ∀ (s : State) (fn : BitVec 5) (off : BitVec 36) (data : List Byte) (port : BitVec 4) (pa : BitVec 44) (reg : BitVec 26) (val : DWord),
    (∀ s1 ls, Reached s fn → PlainStore s1 → (∀ l ∈ ls, l.key < windowTop) →
      (s.placeAll 64 3 ⟨fn.toNat, 0, false, false⟩ .load (span off.toNat data.length) = .ok s1 ls → ∃ t,
        exec (.hostBar2Access fn off false data) s = .next t ∧ t.hostReply = some (ls.map fun l => s1.byte l.key) ∧ t.mem = s1.mem) ∧
      (s.placeAll 64 3 ⟨fn.toNat, 0, false, false⟩ .store (span off.toNat data.length) = .ok s1 ls → ∃ t,
        exec (.hostBar2Access fn off true data) s = .next t ∧ t.hostReply = some [] ∧
        ∀ k, k < windowTop → t.byte k = (lastOf ((ls.map Loc.key).zip data) k).getD (s1.byte k))) ∧
    (∀ (write : Bool) va kind ptepa sys, Reached s fn → s.placeAll 64 3 ⟨fn.toNat, 0, false, false⟩ (if write then .store else .load)
        (span off.toNat data.length) = .fault va kind ptepa sys →
      exec (.hostBar2Access fn off write data) s = .next { s with hostReply := none }) ∧
    (let keys := (span pa.toNat data.length).map (hbmKey false)
     (Sparse.get {} s.ports port.toNat : Port).up = true → PlainStore s →
      ((∃ a ∈ span pa.toNat data.length, 2 ^ 40 ≤ a) → exec (.izlynPeerAccess port pa 0 data) s = .next { s with hostReply := none } ∧
        exec (.izlynPeerAccess port pa 1 data) s = .next { s with hostReply := none }) ∧
      (pa.toNat + data.length ≤ 2 ^ 40 → (∀ k ∈ keys, s.present k = true ∧ s.isProtected k = false) →
        (∃ t, exec (.izlynPeerAccess port pa 0 data) s = .next t ∧ t.hostReply = some (keys.map s.byte) ∧ t.mem = s.mem) ∧
        (∃ t, exec (.izlynPeerAccess port pa 1 data) s = .next t ∧ t.hostReply = some [] ∧
          ∀ k, k < windowTop → t.byte k = (lastOf (keys.zip data) k).getD (s.byte k)) ∧
        ∀ kind aop ty w, (kind, aop, ty, w) ∈ peerAtomics → data.length = (if aop = .cas then 2 * w else w) → s.poison = [] → s.hbmErr = [] →
          s.cmp.en = false →
          let ks := keys.take w
          let old : BitVec (8 * w) := .ofNat _ (leNat (ks.map s.byte))
          let new := atomNew aop ty old (.ofNat _ (leNat (data.take w))) (.ofNat _ (leNat (data.drop w)))
          ∃ t, exec (.izlynPeerAccess port pa (.ofNat 4 kind) data) s = .next t ∧ t.hostReply = some (lowBytes w old.toNat) ∧
          ∀ k, k < windowTop → t.byte k = (lastOf (ks.zip (lowBytes w new.toNat)) k).getD (s.byte k))) ∧
    (Reached s fn →
      (fn ≠ 0 → vfReaches reg.toNat = false → exec (.registerWrite fn reg val) s = .next s) ∧
      (regWrite fn.toNat reg.toNat val = none → exec (.registerWrite fn reg val) s = .next s) ∧
      (∀ n, n < 17 → fn = 0 → reg.toNat = 8 * n → ∃ t, exec (.registerWrite fn reg val) s = .next t ∧
        t.x = { s.x with vmroot := Sparse.set 0 s.x.vmroot n (val &&& 0x0FFFFFFFFFFF0001) } ∧ t.mem = s.mem ∧ t.waves = s.waves) ∧
      (fn = 0 → reg = 0x418 → ∃ t, exec (.registerWrite fn reg val) s = .next t ∧
        t.x = { s.x with fqHead := val.extractLsb' 32 32 } ∧ t.mem = s.mem) ∧
      (reg = 0x5400 →
        let m := s.mbOf fn.toNat
        let slot := bits val 19 16
        let cmd := bits val 15 0
        ∃ t, exec (.registerWrite fn reg val) s = .next t ∧ t = { s with mbox := t.mbox } ∧ t.mbOf fn.toNat =
          if m.busy = true ∨ val.getLsbD 63 = false then { m with slot := slot, cmd := cmd }
          else { m with
            slot := slot, cmd := cmd, runSlot := slot, runCmd := cmd, busy := true
            result := if bits val 62 20 ≠ 0 ∨ 1 < slot ∨ cmd = 0 ∨ 5 < cmd then some (1, 0) else none })) ∧
    (s.pcie.up = true →
      (MbAsked s fn 1 → (s.um.booted = false → MbRefused s (exec (.attest fn) s) fn 2) ∧
        (s.um.booted = true → (s.mbOf fn.toNat).len < 30448 → MbRefused s (exec (.attest fn) s) fn 5)) ∧
      (MbAsked s fn 2 → (s.um.booted = false → MbRefused s (exec (.identity fn) s) fn 2) ∧
        (s.um.booted = true → Config.identityLen.toNat ≤ (s.mbOf fn.toNat).len ∨ MbRefused s (exec (.identity fn) s) fn 5)) ∧
      (MbAsked s fn 3 → fn ≠ 0 ∨ (s.mbOf fn.toNat).runSlot = s.um.running → MbRefused s (exec (.image fn) s) fn 2) ∧
      (MbAsked s fn 4 → fn ≠ 0 ∨ s.um.booted = false → MbRefused s (exec (.activate fn) s) fn 2) ∧
      (MbAsked s fn 5 → s.fatal = 0 → fn ≠ 0 ∨ s.um.booted = false → MbRefused s (exec (.dump fn) s) fn 2)) ∧
    (PlainStore s → (s.mbOf fn.toNat).addr + (s.mbOf fn.toNat).len ≤ 2 ^ 52 → s.pcie.up = true →
      (MbCommand s fn 1 false → 30448 ≤ (s.mbOf fn.toNat).len → ∃ t, exec (.attest fn) s = .next t ∧
        MbEnds s t fn 0 30448 (s.report (s.mbRead fn.toNat 32))) ∧
      (MbCommand s fn 2 false → Config.identityLen.toNat ≤ (s.mbOf fn.toNat).len → ∃ t, exec (.identity fn) s = .next t ∧
        MbEnds s t fn 0 Config.identityLen.toNat ((List.range Config.identityLen.toNat).map Config.identity)) ∧
      (MbCommand s fn 3 true → (s.mbOf fn.toNat).runSlot ≠ s.um.running →
        let im := s.mbRead fn.toNat (s.mbOf fn.toNat).len
        ∃ t, exec (.image fn) s = .next t ∧ MbEnds s t fn (imageStatus im) 0 [] ∧
        (imageStatus im = 0 → t.um.imageOf (s.mbOf fn.toNat).runSlot = im) ∧ (imageStatus im ≠ 0 → t.um = s.um)) ∧
      (MbCommand s fn 4 true →
        let im := s.um.imageOf (s.mbOf fn.toNat).runSlot
        ∃ t, exec (.activate fn) s = .next t ∧ MbEnds s t fn (imageStatus im) 0 [] ∧
        t.um = if imageStatus im = 0 then { s.um with preferred := (s.mbOf fn.toNat).runSlot } else s.um)) ∧
    (MbCommand s fn 5 true → s.fatal = 0 → ∃ t, exec (.dump fn) s = .next t ∧ t.fatal = 4 ∧ t.waves = s.waves) ∧
    (∀ st n, (s.mbOf fn.toNat).result = some (st, n) → (s.mbOf fn.toNat).busy = true → ∃ t, exec (.mailboxReply fn) s = .next t ∧
      t.mbOf fn.toNat = { s.mbOf fn.toNat with busy := false, status := st, rlen := n, result := none } ∧
      t.msi = s.msi ++ [(fn.toNat, 4)] ∧ t.mem = s.mem)
end

