-- ==== Sys2Proof/Laws/Sparse.lean ====
section
/-! SUPPORT. Sparse storage: reading after writing, and that every operation keeps the canonical form. -/
namespace Sys2Proof.Machine

variable {α : Type}

/-- A bound on the keys may be weakened. -/
theorem Sparse.wfFrom_mono [DecidableEq α] (d : α) {lo hi : Nat} {m : Sparse α} (h : Sparse.wfFrom d hi m = true) (hl : lo ≤ hi) :
    Sparse.wfFrom d lo m = true := by
  cases m with
  | nil => rfl
  | cons kv t =>
    obtain ⟨k, v⟩ := kv
    simp only [Sparse.wfFrom, Bool.and_eq_true, decide_eq_true_eq] at h ⊢
    exact ⟨⟨by omega, h.1.2⟩, h.2⟩

/-- Reading back what was put at a key. -/
theorem Sparse.get_put_same (d : α) (i : Nat) (v : α) (m : Sparse α) : Sparse.get d (Sparse.put i v m) i = v := by
  induction m with
  | nil => simp [Sparse.put, Sparse.get]
  | cons kv t ih =>
    obtain ⟨k, w⟩ := kv
    by_cases h : i = k
    · simp [Sparse.put, Sparse.get, h]
    · by_cases h2 : i < k
      · simp [Sparse.put, Sparse.get, h, h2]
      · simp [Sparse.put, Sparse.get, h, h2, ih]

/-- Putting at one key changes no other. -/
theorem Sparse.get_put_other (d : α) {i j : Nat} (v : α) (m : Sparse α) (h : j ≠ i) :
    Sparse.get d (Sparse.put i v m) j = Sparse.get d m j := by
  induction m with
  | nil => simp [Sparse.put, Sparse.get, h]
  | cons kv t ih =>
    obtain ⟨k, w⟩ := kv
    by_cases h1 : i = k
    · subst h1; simp [Sparse.put, Sparse.get, h]
    · by_cases h2 : i < k
      · simp [Sparse.put, Sparse.get, h1, h2, h]
      · simp [Sparse.put, Sparse.get, h1, h2, ih]

/-- Dropping a key makes it read as the default. -/
theorem Sparse.get_drop_same (d : α) (i : Nat) (m : Sparse α) : Sparse.get d (Sparse.drop i m) i = d := by
  unfold Sparse.drop
  induction m with
  | nil => rfl
  | cons kv t ih =>
    obtain ⟨k, w⟩ := kv
    by_cases h1 : k = i
    · simpa [h1] using ih
    · simpa [h1, Sparse.get, Ne.symm h1] using ih

/-- Dropping one key changes no other. -/
theorem Sparse.get_drop_other (d : α) {i j : Nat} (m : Sparse α) (h : j ≠ i) :
    Sparse.get d (Sparse.drop i m) j = Sparse.get d m j := by
  unfold Sparse.drop
  induction m with
  | nil => rfl
  | cons kv t ih =>
    obtain ⟨k, w⟩ := kv
    by_cases h1 : k = i
    · subst h1; simpa [Sparse.get, h] using ih
    · simpa [h1, Sparse.get] using congrArg (fun x => if j = k then w else x) ih

/-- Reading back what was written. -/
theorem Sparse.get_set_same [DecidableEq α] (d : α) (i : Nat) (v : α) (m : Sparse α) :
    Sparse.get d (Sparse.set d m i v) i = v := by
  unfold Sparse.set
  by_cases h : v = d
  · simpa [h] using Sparse.get_drop_same d i m
  · simpa [h] using Sparse.get_put_same d i v m

/-- Writing at one key changes no other. -/
theorem Sparse.get_set_other [DecidableEq α] (d : α) {i j : Nat} (v : α) (m : Sparse α) (h : j ≠ i) :
    Sparse.get d (Sparse.set d m i v) j = Sparse.get d m j := by
  unfold Sparse.set
  by_cases h1 : v = d
  · simpa [h1] using Sparse.get_drop_other d m h
  · simpa [h1] using Sparse.get_put_other d v m h

/-- Reading after a write. -/
theorem Sparse.get_set [DecidableEq α] (d : α) (i j : Nat) (v : α) (m : Sparse α) :
    Sparse.get d (Sparse.set d m i v) j = if j = i then v else Sparse.get d m j := by
  by_cases h : j = i
  · subst h; simp [Sparse.get_set_same]
  · simp [h, Sparse.get_set_other]

theorem Sparse.wfFrom_put [DecidableEq α] (d : α) {lo i : Nat} {v : α} (hv : v ≠ d) {m : Sparse α} (hm : Sparse.wfFrom d lo m = true)
    (hi : lo ≤ i) : Sparse.wfFrom d lo (Sparse.put i v m) = true := by
  induction m generalizing lo with
  | nil => simp [Sparse.put, Sparse.wfFrom, hv, hi]
  | cons kv t ih =>
    obtain ⟨k, w⟩ := kv
    simp only [Sparse.wfFrom, Bool.and_eq_true, decide_eq_true_eq] at hm
    by_cases h1 : i = k
    · subst h1; simp [Sparse.put, Sparse.wfFrom, hv, hi, hm.2]
    · by_cases h2 : i < k
      · have hw : w ≠ d := by simpa using hm.1.2
        have : i + 1 ≤ k := h2
        simp [Sparse.put, Sparse.wfFrom, h1, h2, hv, hi, hw, hm.2, this]
      · have : k + 1 ≤ i := by omega
        have hw : w ≠ d := by simpa using hm.1.2
        simp [Sparse.put, Sparse.wfFrom, h1, h2, hm.1.1, hw, ih hm.2 this]

theorem Sparse.wfFrom_filter [DecidableEq α] (d : α) {lo : Nat} (p : Nat × α → Bool) {m : Sparse α} (hm : Sparse.wfFrom d lo m = true) :
    Sparse.wfFrom d lo (List.filter p m) = true := by
  induction m generalizing lo with
  | nil => rfl
  | cons kv t ih =>
    obtain ⟨k, w⟩ := kv
    simp only [Sparse.wfFrom, Bool.and_eq_true, decide_eq_true_eq] at hm
    cases h : p (k, w) with
    | true => simpa [List.filter, h, Sparse.wfFrom, hm.1.1] using ⟨by simpa using hm.1.2, ih hm.2⟩
    | false => simpa [List.filter, h] using Sparse.wfFrom_mono d (ih hm.2) (by omega)

theorem Sparse.wfFrom_drop [DecidableEq α] (d : α) {lo : Nat} (i : Nat) {m : Sparse α} (hm : Sparse.wfFrom d lo m = true) :
    Sparse.wfFrom d lo (Sparse.drop i m) = true := Sparse.wfFrom_filter d _ hm

/-- A write keeps the canonical form. -/
theorem Sparse.wf_set [DecidableEq α] (d : α) (i : Nat) (v : α) {m : Sparse α} (hm : Sparse.wf d m = true) :
    Sparse.wf d (Sparse.set d m i v) = true := by
  unfold Sparse.set
  by_cases h : v = d
  · simpa [h] using Sparse.wfFrom_drop d i hm
  · simpa [h] using Sparse.wfFrom_put d h hm (Nat.zero_le i)

/-- A list of writes keeps the canonical form. -/
theorem Sparse.wf_setAll [DecidableEq α] (d : α) (kvs : List (Nat × α)) {m : Sparse α} (hm : Sparse.wf d m = true) :
    Sparse.wf d (Sparse.setAll d m kvs) = true := by
  induction kvs generalizing m with
  | nil => exact hm
  | cons kv t ih => exact ih (Sparse.wf_set d kv.1 kv.2 hm)

/-- Leaving out entries keeps the canonical form. -/
theorem Sparse.wf_filter [DecidableEq α] (d : α) (p : Nat × α → Bool) {m : Sparse α} (hm : Sparse.wf d m = true) :
    Sparse.wf d (List.filter p m) = true := Sparse.wfFrom_filter d p hm

/-- A key that a list of writes does not name reads as before. -/
theorem Sparse.get_setAll_other [DecidableEq α] (d : α) (kvs : List (Nat × α)) (m : Sparse α) {j : Nat}
    (h : ∀ kv ∈ kvs, kv.1 ≠ j) : Sparse.get d (Sparse.setAll d m kvs) j = Sparse.get d m j := by
  induction kvs generalizing m with
  | nil => rfl
  | cons kv t ih =>
    have h1 : j ≠ kv.1 := fun e => h kv (List.mem_cons_self ..) e.symm
    exact (ih _ fun x hx => h x (List.mem_cons_of_mem _ hx)).trans (Sparse.get_set_other d kv.2 m h1)

end Sys2Proof.Machine
end

