-- ==== Sys2Proof/Laws/State.lean ====
section
/-! SUPPORT. What each update of one wave, block, grid, core or operation leaves in every field of the state, and reading back. -/
namespace Sys2Proof.Machine

/-! ## setWave -/

@[simp] theorem State.setWave_inputs (s : State) (i : Nat) (w : Wave) : (s.setWave i w).inputs = s.inputs := rfl
@[simp] theorem State.setWave_choice (s : State) (i : Nat) (w : Wave) : (s.setWave i w).choice = s.choice := rfl
@[simp] theorem State.setWave_cur (s : State) (i : Nat) (w : Wave) : (s.setWave i w).cur = s.cur := rfl
@[simp] theorem State.setWave_clk (s : State) (i : Nat) (w : Wave) : (s.setWave i w).clk = s.clk := rfl
@[simp] theorem State.setWave_mem (s : State) (i : Nat) (w : Wave) : (s.setWave i w).mem = s.mem := rfl
@[simp] theorem State.setWave_poison (s : State) (i : Nat) (w : Wave) : (s.setWave i w).poison = s.poison := rfl
@[simp] theorem State.setWave_hbmErr (s : State) (i : Nat) (w : Wave) : (s.setWave i w).hbmErr = s.hbmErr := rfl
@[simp] theorem State.setWave_codeHeld (s : State) (i : Nat) (w : Wave) : (s.setWave i w).codeHeld = s.codeHeld := rfl
@[simp] theorem State.setWave_stopped (s : State) (i : Nat) (w : Wave) : (s.setWave i w).stopped = s.stopped := rfl
@[simp] theorem State.setWave_waves (s : State) (i : Nat) (w : Wave) : (s.setWave i w).waves = s.waves.set i w := rfl
@[simp] theorem State.setWave_blocks (s : State) (i : Nat) (w : Wave) : (s.setWave i w).blocks = s.blocks := rfl
@[simp] theorem State.setWave_grids (s : State) (i : Nat) (w : Wave) : (s.setWave i w).grids = s.grids := rfl
@[simp] theorem State.setWave_ops (s : State) (i : Nat) (w : Wave) : (s.setWave i w).ops = s.ops := rfl
@[simp] theorem State.setWave_cores (s : State) (i : Nat) (w : Wave) : (s.setWave i w).cores = s.cores := rfl
@[simp] theorem State.setWave_resv (s : State) (i : Nat) (w : Wave) : (s.setWave i w).resv = s.resv := rfl
@[simp] theorem State.setWave_postSeq (s : State) (i : Nat) (w : Wave) : (s.setWave i w).postSeq = s.postSeq := rfl
@[simp] theorem State.setWave_svcQueue (s : State) (i : Nat) (w : Wave) : (s.setWave i w).svcQueue = s.svcQueue := rfl
@[simp] theorem State.setWave_svcImg (s : State) (i : Nat) (w : Wave) : (s.setWave i w).svcImg = s.svcImg := rfl
@[simp] theorem State.setWave_errors (s : State) (i : Nat) (w : Wave) : (s.setWave i w).errors = s.errors := rfl
@[simp] theorem State.setWave_x (s : State) (i : Nat) (w : Wave) : (s.setWave i w).x = s.x := rfl
@[simp] theorem State.setWave_l2 (s : State) (i : Nat) (w : Wave) : (s.setWave i w).l2 = s.l2 := rfl
@[simp] theorem State.setWave_lreg (s : State) (i : Nat) (w : Wave) : (s.setWave i w).lreg = s.lreg := rfl
@[simp] theorem State.setWave_land (s : State) (i : Nat) (w : Wave) : (s.setWave i w).land = s.land := rfl
@[simp] theorem State.setWave_cmp (s : State) (i : Nat) (w : Wave) : (s.setWave i w).cmp = s.cmp := rfl
@[simp] theorem State.setWave_queues (s : State) (i : Nat) (w : Wave) : (s.setWave i w).queues = s.queues := rfl
@[simp] theorem State.setWave_coll (s : State) (i : Nat) (w : Wave) : (s.setWave i w).coll = s.coll := rfl
@[simp] theorem State.setWave_ports (s : State) (i : Nat) (w : Wave) : (s.setWave i w).ports = s.ports := rfl
@[simp] theorem State.setWave_lq (s : State) (i : Nat) (w : Wave) : (s.setWave i w).lq = s.lq := rfl
@[simp] theorem State.setWave_izroute (s : State) (i : Nat) (w : Wave) : (s.setWave i w).izroute = s.izroute := rfl
@[simp] theorem State.setWave_chRetired (s : State) (i : Nat) (w : Wave) : (s.setWave i w).chRetired = s.chRetired := rfl
@[simp] theorem State.setWave_chPending (s : State) (i : Nat) (w : Wave) : (s.setWave i w).chPending = s.chPending := rfl
@[simp] theorem State.setWave_clRetired (s : State) (i : Nat) (w : Wave) : (s.setWave i w).clRetired = s.clRetired := rfl
@[simp] theorem State.setWave_clPending (s : State) (i : Nat) (w : Wave) : (s.setWave i w).clPending = s.clPending := rfl
@[simp] theorem State.setWave_clFenced (s : State) (i : Nat) (w : Wave) : (s.setWave i w).clFenced = s.clFenced := rfl
@[simp] theorem State.setWave_sailed (s : State) (i : Nat) (w : Wave) : (s.setWave i w).sailed = s.sailed := rfl
@[simp] theorem State.setWave_err (s : State) (i : Nat) (w : Wave) : (s.setWave i w).err = s.err := rfl
@[simp] theorem State.setWave_svc (s : State) (i : Nat) (w : Wave) : (s.setWave i w).svc = s.svc := rfl
@[simp] theorem State.setWave_svcRead (s : State) (i : Nat) (w : Wave) : (s.setWave i w).svcRead = s.svcRead := rfl
@[simp] theorem State.setWave_mbox (s : State) (i : Nat) (w : Wave) : (s.setWave i w).mbox = s.mbox := rfl
@[simp] theorem State.setWave_um (s : State) (i : Nat) (w : Wave) : (s.setWave i w).um = s.um := rfl
@[simp] theorem State.setWave_ctxPool (s : State) (i : Nat) (w : Wave) : (s.setWave i w).ctxPool = s.ctxPool := rfl
@[simp] theorem State.setWave_pmt (s : State) (i : Nat) (w : Wave) : (s.setWave i w).pmt = s.pmt := rfl
@[simp] theorem State.setWave_gov (s : State) (i : Nat) (w : Wave) : (s.setWave i w).gov = s.gov := rfl
@[simp] theorem State.setWave_gangs (s : State) (i : Nat) (w : Wave) : (s.setWave i w).gangs = s.gangs := rfl
@[simp] theorem State.setWave_tt (s : State) (i : Nat) (w : Wave) : (s.setWave i w).tt = s.tt := rfl
@[simp] theorem State.setWave_noc (s : State) (i : Nat) (w : Wave) : (s.setWave i w).noc = s.noc := rfl
@[simp] theorem State.setWave_hbm (s : State) (i : Nat) (w : Wave) : (s.setWave i w).hbm = s.hbm := rfl
@[simp] theorem State.setWave_pcie (s : State) (i : Nat) (w : Wave) : (s.setWave i w).pcie = s.pcie := rfl
@[simp] theorem State.setWave_dumpBase (s : State) (i : Nat) (w : Wave) : (s.setWave i w).dumpBase = s.dumpBase := rfl
@[simp] theorem State.setWave_dumpEn (s : State) (i : Nat) (w : Wave) : (s.setWave i w).dumpEn = s.dumpEn := rfl
@[simp] theorem State.setWave_fatal (s : State) (i : Nat) (w : Wave) : (s.setWave i w).fatal = s.fatal := rfl
@[simp] theorem State.setWave_dumped (s : State) (i : Nat) (w : Wave) : (s.setWave i w).dumped = s.dumped := rfl
@[simp] theorem State.setWave_off (s : State) (i : Nat) (w : Wave) : (s.setWave i w).off = s.off := rfl
@[simp] theorem State.setWave_msi (s : State) (i : Nat) (w : Wave) : (s.setWave i w).msi = s.msi := rfl
@[simp] theorem State.setWave_hostReply (s : State) (i : Nat) (w : Wave) : (s.setWave i w).hostReply = s.hostReply := rfl
@[simp] theorem State.setWave_soft (s : State) (i : Nat) (w : Wave) : (s.setWave i w).soft = s.soft := rfl

/-! ## setBlock -/

@[simp] theorem State.setBlock_inputs (s : State) (i : Nat) (b : Block) : (s.setBlock i b).inputs = s.inputs := rfl
@[simp] theorem State.setBlock_choice (s : State) (i : Nat) (b : Block) : (s.setBlock i b).choice = s.choice := rfl
@[simp] theorem State.setBlock_cur (s : State) (i : Nat) (b : Block) : (s.setBlock i b).cur = s.cur := rfl
@[simp] theorem State.setBlock_clk (s : State) (i : Nat) (b : Block) : (s.setBlock i b).clk = s.clk := rfl
@[simp] theorem State.setBlock_mem (s : State) (i : Nat) (b : Block) : (s.setBlock i b).mem = s.mem := rfl
@[simp] theorem State.setBlock_poison (s : State) (i : Nat) (b : Block) : (s.setBlock i b).poison = s.poison := rfl
@[simp] theorem State.setBlock_hbmErr (s : State) (i : Nat) (b : Block) : (s.setBlock i b).hbmErr = s.hbmErr := rfl
@[simp] theorem State.setBlock_codeHeld (s : State) (i : Nat) (b : Block) : (s.setBlock i b).codeHeld = s.codeHeld := rfl
@[simp] theorem State.setBlock_stopped (s : State) (i : Nat) (b : Block) : (s.setBlock i b).stopped = s.stopped := rfl
@[simp] theorem State.setBlock_waves (s : State) (i : Nat) (b : Block) : (s.setBlock i b).waves = s.waves := rfl
@[simp] theorem State.setBlock_blocks (s : State) (i : Nat) (b : Block) : (s.setBlock i b).blocks = s.blocks.set i b := rfl
@[simp] theorem State.setBlock_grids (s : State) (i : Nat) (b : Block) : (s.setBlock i b).grids = s.grids := rfl
@[simp] theorem State.setBlock_ops (s : State) (i : Nat) (b : Block) : (s.setBlock i b).ops = s.ops := rfl
@[simp] theorem State.setBlock_cores (s : State) (i : Nat) (b : Block) : (s.setBlock i b).cores = s.cores := rfl
@[simp] theorem State.setBlock_resv (s : State) (i : Nat) (b : Block) : (s.setBlock i b).resv = s.resv := rfl
@[simp] theorem State.setBlock_postSeq (s : State) (i : Nat) (b : Block) : (s.setBlock i b).postSeq = s.postSeq := rfl
@[simp] theorem State.setBlock_svcQueue (s : State) (i : Nat) (b : Block) : (s.setBlock i b).svcQueue = s.svcQueue := rfl
@[simp] theorem State.setBlock_svcImg (s : State) (i : Nat) (b : Block) : (s.setBlock i b).svcImg = s.svcImg := rfl
@[simp] theorem State.setBlock_errors (s : State) (i : Nat) (b : Block) : (s.setBlock i b).errors = s.errors := rfl
@[simp] theorem State.setBlock_x (s : State) (i : Nat) (b : Block) : (s.setBlock i b).x = s.x := rfl
@[simp] theorem State.setBlock_l2 (s : State) (i : Nat) (b : Block) : (s.setBlock i b).l2 = s.l2 := rfl
@[simp] theorem State.setBlock_lreg (s : State) (i : Nat) (b : Block) : (s.setBlock i b).lreg = s.lreg := rfl
@[simp] theorem State.setBlock_land (s : State) (i : Nat) (b : Block) : (s.setBlock i b).land = s.land := rfl
@[simp] theorem State.setBlock_cmp (s : State) (i : Nat) (b : Block) : (s.setBlock i b).cmp = s.cmp := rfl
@[simp] theorem State.setBlock_queues (s : State) (i : Nat) (b : Block) : (s.setBlock i b).queues = s.queues := rfl
@[simp] theorem State.setBlock_coll (s : State) (i : Nat) (b : Block) : (s.setBlock i b).coll = s.coll := rfl
@[simp] theorem State.setBlock_ports (s : State) (i : Nat) (b : Block) : (s.setBlock i b).ports = s.ports := rfl
@[simp] theorem State.setBlock_lq (s : State) (i : Nat) (b : Block) : (s.setBlock i b).lq = s.lq := rfl
@[simp] theorem State.setBlock_izroute (s : State) (i : Nat) (b : Block) : (s.setBlock i b).izroute = s.izroute := rfl
@[simp] theorem State.setBlock_chRetired (s : State) (i : Nat) (b : Block) : (s.setBlock i b).chRetired = s.chRetired := rfl
@[simp] theorem State.setBlock_chPending (s : State) (i : Nat) (b : Block) : (s.setBlock i b).chPending = s.chPending := rfl
@[simp] theorem State.setBlock_clRetired (s : State) (i : Nat) (b : Block) : (s.setBlock i b).clRetired = s.clRetired := rfl
@[simp] theorem State.setBlock_clPending (s : State) (i : Nat) (b : Block) : (s.setBlock i b).clPending = s.clPending := rfl
@[simp] theorem State.setBlock_clFenced (s : State) (i : Nat) (b : Block) : (s.setBlock i b).clFenced = s.clFenced := rfl
@[simp] theorem State.setBlock_sailed (s : State) (i : Nat) (b : Block) : (s.setBlock i b).sailed = s.sailed := rfl
@[simp] theorem State.setBlock_err (s : State) (i : Nat) (b : Block) : (s.setBlock i b).err = s.err := rfl
@[simp] theorem State.setBlock_svc (s : State) (i : Nat) (b : Block) : (s.setBlock i b).svc = s.svc := rfl
@[simp] theorem State.setBlock_svcRead (s : State) (i : Nat) (b : Block) : (s.setBlock i b).svcRead = s.svcRead := rfl
@[simp] theorem State.setBlock_mbox (s : State) (i : Nat) (b : Block) : (s.setBlock i b).mbox = s.mbox := rfl
@[simp] theorem State.setBlock_um (s : State) (i : Nat) (b : Block) : (s.setBlock i b).um = s.um := rfl
@[simp] theorem State.setBlock_ctxPool (s : State) (i : Nat) (b : Block) : (s.setBlock i b).ctxPool = s.ctxPool := rfl
@[simp] theorem State.setBlock_pmt (s : State) (i : Nat) (b : Block) : (s.setBlock i b).pmt = s.pmt := rfl
@[simp] theorem State.setBlock_gov (s : State) (i : Nat) (b : Block) : (s.setBlock i b).gov = s.gov := rfl
@[simp] theorem State.setBlock_gangs (s : State) (i : Nat) (b : Block) : (s.setBlock i b).gangs = s.gangs := rfl
@[simp] theorem State.setBlock_tt (s : State) (i : Nat) (b : Block) : (s.setBlock i b).tt = s.tt := rfl
@[simp] theorem State.setBlock_noc (s : State) (i : Nat) (b : Block) : (s.setBlock i b).noc = s.noc := rfl
@[simp] theorem State.setBlock_hbm (s : State) (i : Nat) (b : Block) : (s.setBlock i b).hbm = s.hbm := rfl
@[simp] theorem State.setBlock_pcie (s : State) (i : Nat) (b : Block) : (s.setBlock i b).pcie = s.pcie := rfl
@[simp] theorem State.setBlock_dumpBase (s : State) (i : Nat) (b : Block) : (s.setBlock i b).dumpBase = s.dumpBase := rfl
@[simp] theorem State.setBlock_dumpEn (s : State) (i : Nat) (b : Block) : (s.setBlock i b).dumpEn = s.dumpEn := rfl
@[simp] theorem State.setBlock_fatal (s : State) (i : Nat) (b : Block) : (s.setBlock i b).fatal = s.fatal := rfl
@[simp] theorem State.setBlock_dumped (s : State) (i : Nat) (b : Block) : (s.setBlock i b).dumped = s.dumped := rfl
@[simp] theorem State.setBlock_off (s : State) (i : Nat) (b : Block) : (s.setBlock i b).off = s.off := rfl
@[simp] theorem State.setBlock_msi (s : State) (i : Nat) (b : Block) : (s.setBlock i b).msi = s.msi := rfl
@[simp] theorem State.setBlock_hostReply (s : State) (i : Nat) (b : Block) : (s.setBlock i b).hostReply = s.hostReply := rfl
@[simp] theorem State.setBlock_soft (s : State) (i : Nat) (b : Block) : (s.setBlock i b).soft = s.soft := rfl

/-! ## setGrid -/

@[simp] theorem State.setGrid_inputs (s : State) (i : Nat) (g : Grid) : (s.setGrid i g).inputs = s.inputs := rfl
@[simp] theorem State.setGrid_choice (s : State) (i : Nat) (g : Grid) : (s.setGrid i g).choice = s.choice := rfl
@[simp] theorem State.setGrid_cur (s : State) (i : Nat) (g : Grid) : (s.setGrid i g).cur = s.cur := rfl
@[simp] theorem State.setGrid_clk (s : State) (i : Nat) (g : Grid) : (s.setGrid i g).clk = s.clk := rfl
@[simp] theorem State.setGrid_mem (s : State) (i : Nat) (g : Grid) : (s.setGrid i g).mem = s.mem := rfl
@[simp] theorem State.setGrid_poison (s : State) (i : Nat) (g : Grid) : (s.setGrid i g).poison = s.poison := rfl
@[simp] theorem State.setGrid_hbmErr (s : State) (i : Nat) (g : Grid) : (s.setGrid i g).hbmErr = s.hbmErr := rfl
@[simp] theorem State.setGrid_codeHeld (s : State) (i : Nat) (g : Grid) : (s.setGrid i g).codeHeld = s.codeHeld := rfl
@[simp] theorem State.setGrid_stopped (s : State) (i : Nat) (g : Grid) : (s.setGrid i g).stopped = s.stopped := rfl
@[simp] theorem State.setGrid_waves (s : State) (i : Nat) (g : Grid) : (s.setGrid i g).waves = s.waves := rfl
@[simp] theorem State.setGrid_blocks (s : State) (i : Nat) (g : Grid) : (s.setGrid i g).blocks = s.blocks := rfl
@[simp] theorem State.setGrid_grids (s : State) (i : Nat) (g : Grid) : (s.setGrid i g).grids = s.grids.set i g := rfl
@[simp] theorem State.setGrid_ops (s : State) (i : Nat) (g : Grid) : (s.setGrid i g).ops = s.ops := rfl
@[simp] theorem State.setGrid_cores (s : State) (i : Nat) (g : Grid) : (s.setGrid i g).cores = s.cores := rfl
@[simp] theorem State.setGrid_resv (s : State) (i : Nat) (g : Grid) : (s.setGrid i g).resv = s.resv := rfl
@[simp] theorem State.setGrid_postSeq (s : State) (i : Nat) (g : Grid) : (s.setGrid i g).postSeq = s.postSeq := rfl
@[simp] theorem State.setGrid_svcQueue (s : State) (i : Nat) (g : Grid) : (s.setGrid i g).svcQueue = s.svcQueue := rfl
@[simp] theorem State.setGrid_svcImg (s : State) (i : Nat) (g : Grid) : (s.setGrid i g).svcImg = s.svcImg := rfl
@[simp] theorem State.setGrid_errors (s : State) (i : Nat) (g : Grid) : (s.setGrid i g).errors = s.errors := rfl
@[simp] theorem State.setGrid_x (s : State) (i : Nat) (g : Grid) : (s.setGrid i g).x = s.x := rfl
@[simp] theorem State.setGrid_l2 (s : State) (i : Nat) (g : Grid) : (s.setGrid i g).l2 = s.l2 := rfl
@[simp] theorem State.setGrid_lreg (s : State) (i : Nat) (g : Grid) : (s.setGrid i g).lreg = s.lreg := rfl
@[simp] theorem State.setGrid_land (s : State) (i : Nat) (g : Grid) : (s.setGrid i g).land = s.land := rfl
@[simp] theorem State.setGrid_cmp (s : State) (i : Nat) (g : Grid) : (s.setGrid i g).cmp = s.cmp := rfl
@[simp] theorem State.setGrid_queues (s : State) (i : Nat) (g : Grid) : (s.setGrid i g).queues = s.queues := rfl
@[simp] theorem State.setGrid_coll (s : State) (i : Nat) (g : Grid) : (s.setGrid i g).coll = s.coll := rfl
@[simp] theorem State.setGrid_ports (s : State) (i : Nat) (g : Grid) : (s.setGrid i g).ports = s.ports := rfl
@[simp] theorem State.setGrid_lq (s : State) (i : Nat) (g : Grid) : (s.setGrid i g).lq = s.lq := rfl
@[simp] theorem State.setGrid_izroute (s : State) (i : Nat) (g : Grid) : (s.setGrid i g).izroute = s.izroute := rfl
@[simp] theorem State.setGrid_chRetired (s : State) (i : Nat) (g : Grid) : (s.setGrid i g).chRetired = s.chRetired := rfl
@[simp] theorem State.setGrid_chPending (s : State) (i : Nat) (g : Grid) : (s.setGrid i g).chPending = s.chPending := rfl
@[simp] theorem State.setGrid_clRetired (s : State) (i : Nat) (g : Grid) : (s.setGrid i g).clRetired = s.clRetired := rfl
@[simp] theorem State.setGrid_clPending (s : State) (i : Nat) (g : Grid) : (s.setGrid i g).clPending = s.clPending := rfl
@[simp] theorem State.setGrid_clFenced (s : State) (i : Nat) (g : Grid) : (s.setGrid i g).clFenced = s.clFenced := rfl
@[simp] theorem State.setGrid_sailed (s : State) (i : Nat) (g : Grid) : (s.setGrid i g).sailed = s.sailed := rfl
@[simp] theorem State.setGrid_err (s : State) (i : Nat) (g : Grid) : (s.setGrid i g).err = s.err := rfl
@[simp] theorem State.setGrid_svc (s : State) (i : Nat) (g : Grid) : (s.setGrid i g).svc = s.svc := rfl
@[simp] theorem State.setGrid_svcRead (s : State) (i : Nat) (g : Grid) : (s.setGrid i g).svcRead = s.svcRead := rfl
@[simp] theorem State.setGrid_mbox (s : State) (i : Nat) (g : Grid) : (s.setGrid i g).mbox = s.mbox := rfl
@[simp] theorem State.setGrid_um (s : State) (i : Nat) (g : Grid) : (s.setGrid i g).um = s.um := rfl
@[simp] theorem State.setGrid_ctxPool (s : State) (i : Nat) (g : Grid) : (s.setGrid i g).ctxPool = s.ctxPool := rfl
@[simp] theorem State.setGrid_pmt (s : State) (i : Nat) (g : Grid) : (s.setGrid i g).pmt = s.pmt := rfl
@[simp] theorem State.setGrid_gov (s : State) (i : Nat) (g : Grid) : (s.setGrid i g).gov = s.gov := rfl
@[simp] theorem State.setGrid_gangs (s : State) (i : Nat) (g : Grid) : (s.setGrid i g).gangs = s.gangs := rfl
@[simp] theorem State.setGrid_tt (s : State) (i : Nat) (g : Grid) : (s.setGrid i g).tt = s.tt := rfl
@[simp] theorem State.setGrid_noc (s : State) (i : Nat) (g : Grid) : (s.setGrid i g).noc = s.noc := rfl
@[simp] theorem State.setGrid_hbm (s : State) (i : Nat) (g : Grid) : (s.setGrid i g).hbm = s.hbm := rfl
@[simp] theorem State.setGrid_pcie (s : State) (i : Nat) (g : Grid) : (s.setGrid i g).pcie = s.pcie := rfl
@[simp] theorem State.setGrid_dumpBase (s : State) (i : Nat) (g : Grid) : (s.setGrid i g).dumpBase = s.dumpBase := rfl
@[simp] theorem State.setGrid_dumpEn (s : State) (i : Nat) (g : Grid) : (s.setGrid i g).dumpEn = s.dumpEn := rfl
@[simp] theorem State.setGrid_fatal (s : State) (i : Nat) (g : Grid) : (s.setGrid i g).fatal = s.fatal := rfl
@[simp] theorem State.setGrid_dumped (s : State) (i : Nat) (g : Grid) : (s.setGrid i g).dumped = s.dumped := rfl
@[simp] theorem State.setGrid_off (s : State) (i : Nat) (g : Grid) : (s.setGrid i g).off = s.off := rfl
@[simp] theorem State.setGrid_msi (s : State) (i : Nat) (g : Grid) : (s.setGrid i g).msi = s.msi := rfl
@[simp] theorem State.setGrid_hostReply (s : State) (i : Nat) (g : Grid) : (s.setGrid i g).hostReply = s.hostReply := rfl
@[simp] theorem State.setGrid_soft (s : State) (i : Nat) (g : Grid) : (s.setGrid i g).soft = s.soft := rfl

/-! ## setCore -/

@[simp] theorem State.setCore_inputs (s : State) (i : Nat) (c : CoreSt) : (s.setCore i c).inputs = s.inputs := rfl
@[simp] theorem State.setCore_choice (s : State) (i : Nat) (c : CoreSt) : (s.setCore i c).choice = s.choice := rfl
@[simp] theorem State.setCore_cur (s : State) (i : Nat) (c : CoreSt) : (s.setCore i c).cur = s.cur := rfl
@[simp] theorem State.setCore_clk (s : State) (i : Nat) (c : CoreSt) : (s.setCore i c).clk = s.clk := rfl
@[simp] theorem State.setCore_mem (s : State) (i : Nat) (c : CoreSt) : (s.setCore i c).mem = s.mem := rfl
@[simp] theorem State.setCore_poison (s : State) (i : Nat) (c : CoreSt) : (s.setCore i c).poison = s.poison := rfl
@[simp] theorem State.setCore_hbmErr (s : State) (i : Nat) (c : CoreSt) : (s.setCore i c).hbmErr = s.hbmErr := rfl
@[simp] theorem State.setCore_codeHeld (s : State) (i : Nat) (c : CoreSt) : (s.setCore i c).codeHeld = s.codeHeld := rfl
@[simp] theorem State.setCore_stopped (s : State) (i : Nat) (c : CoreSt) : (s.setCore i c).stopped = s.stopped := rfl
@[simp] theorem State.setCore_waves (s : State) (i : Nat) (c : CoreSt) : (s.setCore i c).waves = s.waves := rfl
@[simp] theorem State.setCore_blocks (s : State) (i : Nat) (c : CoreSt) : (s.setCore i c).blocks = s.blocks := rfl
@[simp] theorem State.setCore_grids (s : State) (i : Nat) (c : CoreSt) : (s.setCore i c).grids = s.grids := rfl
@[simp] theorem State.setCore_ops (s : State) (i : Nat) (c : CoreSt) : (s.setCore i c).ops = s.ops := rfl
@[simp] theorem State.setCore_cores (s : State) (i : Nat) (c : CoreSt) : (s.setCore i c).cores = Sparse.set {} s.cores i c := rfl
@[simp] theorem State.setCore_resv (s : State) (i : Nat) (c : CoreSt) : (s.setCore i c).resv = s.resv := rfl
@[simp] theorem State.setCore_postSeq (s : State) (i : Nat) (c : CoreSt) : (s.setCore i c).postSeq = s.postSeq := rfl
@[simp] theorem State.setCore_svcQueue (s : State) (i : Nat) (c : CoreSt) : (s.setCore i c).svcQueue = s.svcQueue := rfl
@[simp] theorem State.setCore_svcImg (s : State) (i : Nat) (c : CoreSt) : (s.setCore i c).svcImg = s.svcImg := rfl
@[simp] theorem State.setCore_errors (s : State) (i : Nat) (c : CoreSt) : (s.setCore i c).errors = s.errors := rfl
@[simp] theorem State.setCore_x (s : State) (i : Nat) (c : CoreSt) : (s.setCore i c).x = s.x := rfl
@[simp] theorem State.setCore_l2 (s : State) (i : Nat) (c : CoreSt) : (s.setCore i c).l2 = s.l2 := rfl
@[simp] theorem State.setCore_lreg (s : State) (i : Nat) (c : CoreSt) : (s.setCore i c).lreg = s.lreg := rfl
@[simp] theorem State.setCore_land (s : State) (i : Nat) (c : CoreSt) : (s.setCore i c).land = s.land := rfl
@[simp] theorem State.setCore_cmp (s : State) (i : Nat) (c : CoreSt) : (s.setCore i c).cmp = s.cmp := rfl
@[simp] theorem State.setCore_queues (s : State) (i : Nat) (c : CoreSt) : (s.setCore i c).queues = s.queues := rfl
@[simp] theorem State.setCore_coll (s : State) (i : Nat) (c : CoreSt) : (s.setCore i c).coll = s.coll := rfl
@[simp] theorem State.setCore_ports (s : State) (i : Nat) (c : CoreSt) : (s.setCore i c).ports = s.ports := rfl
@[simp] theorem State.setCore_lq (s : State) (i : Nat) (c : CoreSt) : (s.setCore i c).lq = s.lq := rfl
@[simp] theorem State.setCore_izroute (s : State) (i : Nat) (c : CoreSt) : (s.setCore i c).izroute = s.izroute := rfl
@[simp] theorem State.setCore_chRetired (s : State) (i : Nat) (c : CoreSt) : (s.setCore i c).chRetired = s.chRetired := rfl
@[simp] theorem State.setCore_chPending (s : State) (i : Nat) (c : CoreSt) : (s.setCore i c).chPending = s.chPending := rfl
@[simp] theorem State.setCore_clRetired (s : State) (i : Nat) (c : CoreSt) : (s.setCore i c).clRetired = s.clRetired := rfl
@[simp] theorem State.setCore_clPending (s : State) (i : Nat) (c : CoreSt) : (s.setCore i c).clPending = s.clPending := rfl
@[simp] theorem State.setCore_clFenced (s : State) (i : Nat) (c : CoreSt) : (s.setCore i c).clFenced = s.clFenced := rfl
@[simp] theorem State.setCore_sailed (s : State) (i : Nat) (c : CoreSt) : (s.setCore i c).sailed = s.sailed := rfl
@[simp] theorem State.setCore_err (s : State) (i : Nat) (c : CoreSt) : (s.setCore i c).err = s.err := rfl
@[simp] theorem State.setCore_svc (s : State) (i : Nat) (c : CoreSt) : (s.setCore i c).svc = s.svc := rfl
@[simp] theorem State.setCore_svcRead (s : State) (i : Nat) (c : CoreSt) : (s.setCore i c).svcRead = s.svcRead := rfl
@[simp] theorem State.setCore_mbox (s : State) (i : Nat) (c : CoreSt) : (s.setCore i c).mbox = s.mbox := rfl
@[simp] theorem State.setCore_um (s : State) (i : Nat) (c : CoreSt) : (s.setCore i c).um = s.um := rfl
@[simp] theorem State.setCore_ctxPool (s : State) (i : Nat) (c : CoreSt) : (s.setCore i c).ctxPool = s.ctxPool := rfl
@[simp] theorem State.setCore_pmt (s : State) (i : Nat) (c : CoreSt) : (s.setCore i c).pmt = s.pmt := rfl
@[simp] theorem State.setCore_gov (s : State) (i : Nat) (c : CoreSt) : (s.setCore i c).gov = s.gov := rfl
@[simp] theorem State.setCore_gangs (s : State) (i : Nat) (c : CoreSt) : (s.setCore i c).gangs = s.gangs := rfl
@[simp] theorem State.setCore_tt (s : State) (i : Nat) (c : CoreSt) : (s.setCore i c).tt = s.tt := rfl
@[simp] theorem State.setCore_noc (s : State) (i : Nat) (c : CoreSt) : (s.setCore i c).noc = s.noc := rfl
@[simp] theorem State.setCore_hbm (s : State) (i : Nat) (c : CoreSt) : (s.setCore i c).hbm = s.hbm := rfl
@[simp] theorem State.setCore_pcie (s : State) (i : Nat) (c : CoreSt) : (s.setCore i c).pcie = s.pcie := rfl
@[simp] theorem State.setCore_dumpBase (s : State) (i : Nat) (c : CoreSt) : (s.setCore i c).dumpBase = s.dumpBase := rfl
@[simp] theorem State.setCore_dumpEn (s : State) (i : Nat) (c : CoreSt) : (s.setCore i c).dumpEn = s.dumpEn := rfl
@[simp] theorem State.setCore_fatal (s : State) (i : Nat) (c : CoreSt) : (s.setCore i c).fatal = s.fatal := rfl
@[simp] theorem State.setCore_dumped (s : State) (i : Nat) (c : CoreSt) : (s.setCore i c).dumped = s.dumped := rfl
@[simp] theorem State.setCore_off (s : State) (i : Nat) (c : CoreSt) : (s.setCore i c).off = s.off := rfl
@[simp] theorem State.setCore_msi (s : State) (i : Nat) (c : CoreSt) : (s.setCore i c).msi = s.msi := rfl
@[simp] theorem State.setCore_hostReply (s : State) (i : Nat) (c : CoreSt) : (s.setCore i c).hostReply = s.hostReply := rfl
@[simp] theorem State.setCore_soft (s : State) (i : Nat) (c : CoreSt) : (s.setCore i c).soft = s.soft := rfl

/-! ## setOp -/

@[simp] theorem State.setOp_inputs (s : State) (i : Nat) (o : EngOp) : (s.setOp i o).inputs = s.inputs := rfl
@[simp] theorem State.setOp_choice (s : State) (i : Nat) (o : EngOp) : (s.setOp i o).choice = s.choice := rfl
@[simp] theorem State.setOp_cur (s : State) (i : Nat) (o : EngOp) : (s.setOp i o).cur = s.cur := rfl
@[simp] theorem State.setOp_clk (s : State) (i : Nat) (o : EngOp) : (s.setOp i o).clk = s.clk := rfl
@[simp] theorem State.setOp_mem (s : State) (i : Nat) (o : EngOp) : (s.setOp i o).mem = s.mem := rfl
@[simp] theorem State.setOp_poison (s : State) (i : Nat) (o : EngOp) : (s.setOp i o).poison = s.poison := rfl
@[simp] theorem State.setOp_hbmErr (s : State) (i : Nat) (o : EngOp) : (s.setOp i o).hbmErr = s.hbmErr := rfl
@[simp] theorem State.setOp_codeHeld (s : State) (i : Nat) (o : EngOp) : (s.setOp i o).codeHeld = s.codeHeld := rfl
@[simp] theorem State.setOp_stopped (s : State) (i : Nat) (o : EngOp) : (s.setOp i o).stopped = s.stopped := rfl
@[simp] theorem State.setOp_waves (s : State) (i : Nat) (o : EngOp) : (s.setOp i o).waves = s.waves := rfl
@[simp] theorem State.setOp_blocks (s : State) (i : Nat) (o : EngOp) : (s.setOp i o).blocks = s.blocks := rfl
@[simp] theorem State.setOp_grids (s : State) (i : Nat) (o : EngOp) : (s.setOp i o).grids = s.grids := rfl
@[simp] theorem State.setOp_ops (s : State) (i : Nat) (o : EngOp) : (s.setOp i o).ops = s.ops.set i o := rfl
@[simp] theorem State.setOp_cores (s : State) (i : Nat) (o : EngOp) : (s.setOp i o).cores = s.cores := rfl
@[simp] theorem State.setOp_resv (s : State) (i : Nat) (o : EngOp) : (s.setOp i o).resv = s.resv := rfl
@[simp] theorem State.setOp_postSeq (s : State) (i : Nat) (o : EngOp) : (s.setOp i o).postSeq = s.postSeq := rfl
@[simp] theorem State.setOp_svcQueue (s : State) (i : Nat) (o : EngOp) : (s.setOp i o).svcQueue = s.svcQueue := rfl
@[simp] theorem State.setOp_svcImg (s : State) (i : Nat) (o : EngOp) : (s.setOp i o).svcImg = s.svcImg := rfl
@[simp] theorem State.setOp_errors (s : State) (i : Nat) (o : EngOp) : (s.setOp i o).errors = s.errors := rfl
@[simp] theorem State.setOp_x (s : State) (i : Nat) (o : EngOp) : (s.setOp i o).x = s.x := rfl
@[simp] theorem State.setOp_l2 (s : State) (i : Nat) (o : EngOp) : (s.setOp i o).l2 = s.l2 := rfl
@[simp] theorem State.setOp_lreg (s : State) (i : Nat) (o : EngOp) : (s.setOp i o).lreg = s.lreg := rfl
@[simp] theorem State.setOp_land (s : State) (i : Nat) (o : EngOp) : (s.setOp i o).land = s.land := rfl
@[simp] theorem State.setOp_cmp (s : State) (i : Nat) (o : EngOp) : (s.setOp i o).cmp = s.cmp := rfl
@[simp] theorem State.setOp_queues (s : State) (i : Nat) (o : EngOp) : (s.setOp i o).queues = s.queues := rfl
@[simp] theorem State.setOp_coll (s : State) (i : Nat) (o : EngOp) : (s.setOp i o).coll = s.coll := rfl
@[simp] theorem State.setOp_ports (s : State) (i : Nat) (o : EngOp) : (s.setOp i o).ports = s.ports := rfl
@[simp] theorem State.setOp_lq (s : State) (i : Nat) (o : EngOp) : (s.setOp i o).lq = s.lq := rfl
@[simp] theorem State.setOp_izroute (s : State) (i : Nat) (o : EngOp) : (s.setOp i o).izroute = s.izroute := rfl
@[simp] theorem State.setOp_chRetired (s : State) (i : Nat) (o : EngOp) : (s.setOp i o).chRetired = s.chRetired := rfl
@[simp] theorem State.setOp_chPending (s : State) (i : Nat) (o : EngOp) : (s.setOp i o).chPending = s.chPending := rfl
@[simp] theorem State.setOp_clRetired (s : State) (i : Nat) (o : EngOp) : (s.setOp i o).clRetired = s.clRetired := rfl
@[simp] theorem State.setOp_clPending (s : State) (i : Nat) (o : EngOp) : (s.setOp i o).clPending = s.clPending := rfl
@[simp] theorem State.setOp_clFenced (s : State) (i : Nat) (o : EngOp) : (s.setOp i o).clFenced = s.clFenced := rfl
@[simp] theorem State.setOp_sailed (s : State) (i : Nat) (o : EngOp) : (s.setOp i o).sailed = s.sailed := rfl
@[simp] theorem State.setOp_err (s : State) (i : Nat) (o : EngOp) : (s.setOp i o).err = s.err := rfl
@[simp] theorem State.setOp_svc (s : State) (i : Nat) (o : EngOp) : (s.setOp i o).svc = s.svc := rfl
@[simp] theorem State.setOp_svcRead (s : State) (i : Nat) (o : EngOp) : (s.setOp i o).svcRead = s.svcRead := rfl
@[simp] theorem State.setOp_mbox (s : State) (i : Nat) (o : EngOp) : (s.setOp i o).mbox = s.mbox := rfl
@[simp] theorem State.setOp_um (s : State) (i : Nat) (o : EngOp) : (s.setOp i o).um = s.um := rfl
@[simp] theorem State.setOp_ctxPool (s : State) (i : Nat) (o : EngOp) : (s.setOp i o).ctxPool = s.ctxPool := rfl
@[simp] theorem State.setOp_pmt (s : State) (i : Nat) (o : EngOp) : (s.setOp i o).pmt = s.pmt := rfl
@[simp] theorem State.setOp_gov (s : State) (i : Nat) (o : EngOp) : (s.setOp i o).gov = s.gov := rfl
@[simp] theorem State.setOp_gangs (s : State) (i : Nat) (o : EngOp) : (s.setOp i o).gangs = s.gangs := rfl
@[simp] theorem State.setOp_tt (s : State) (i : Nat) (o : EngOp) : (s.setOp i o).tt = s.tt := rfl
@[simp] theorem State.setOp_noc (s : State) (i : Nat) (o : EngOp) : (s.setOp i o).noc = s.noc := rfl
@[simp] theorem State.setOp_hbm (s : State) (i : Nat) (o : EngOp) : (s.setOp i o).hbm = s.hbm := rfl
@[simp] theorem State.setOp_pcie (s : State) (i : Nat) (o : EngOp) : (s.setOp i o).pcie = s.pcie := rfl
@[simp] theorem State.setOp_dumpBase (s : State) (i : Nat) (o : EngOp) : (s.setOp i o).dumpBase = s.dumpBase := rfl
@[simp] theorem State.setOp_dumpEn (s : State) (i : Nat) (o : EngOp) : (s.setOp i o).dumpEn = s.dumpEn := rfl
@[simp] theorem State.setOp_fatal (s : State) (i : Nat) (o : EngOp) : (s.setOp i o).fatal = s.fatal := rfl
@[simp] theorem State.setOp_dumped (s : State) (i : Nat) (o : EngOp) : (s.setOp i o).dumped = s.dumped := rfl
@[simp] theorem State.setOp_off (s : State) (i : Nat) (o : EngOp) : (s.setOp i o).off = s.off := rfl
@[simp] theorem State.setOp_msi (s : State) (i : Nat) (o : EngOp) : (s.setOp i o).msi = s.msi := rfl
@[simp] theorem State.setOp_hostReply (s : State) (i : Nat) (o : EngOp) : (s.setOp i o).hostReply = s.hostReply := rfl
@[simp] theorem State.setOp_soft (s : State) (i : Nat) (o : EngOp) : (s.setOp i o).soft = s.soft := rfl

/-! ## Reading back -/

@[simp] theorem State.wave_setWave_same (s : State) (i : Nat) (w : Wave) (h : i < s.waves.length) : (s.setWave i w).wave i = w := by
  simp [State.wave, State.setWave, h]

@[simp] theorem State.wave_setWave_other (s : State) (i j : Nat) (w : Wave) (h : j ≠ i) : (s.setWave i w).wave j = s.wave j := by
  simp [State.wave, State.setWave, h.symm]

@[simp] theorem State.block_setWave (s : State) (i j : Nat) (w : Wave) : (s.setWave i w).block j = s.block j := rfl
@[simp] theorem State.grid_setWave (s : State) (i j : Nat) (w : Wave) : (s.setWave i w).grid j = s.grid j := rfl
@[simp] theorem State.core_setWave (s : State) (i j : Nat) (w : Wave) : (s.setWave i w).core j = s.core j := rfl

@[simp] theorem State.block_setBlock_same (s : State) (i : Nat) (b : Block) (h : i < s.blocks.length) :
    (s.setBlock i b).block i = b := by simp [State.block, State.setBlock, h]

@[simp] theorem State.block_setBlock_other (s : State) (i j : Nat) (b : Block) (h : j ≠ i) :
    (s.setBlock i b).block j = s.block j := by simp [State.block, State.setBlock, h.symm]

@[simp] theorem State.wave_setBlock (s : State) (i j : Nat) (b : Block) : (s.setBlock i b).wave j = s.wave j := rfl
@[simp] theorem State.grid_setBlock (s : State) (i j : Nat) (b : Block) : (s.setBlock i b).grid j = s.grid j := rfl
@[simp] theorem State.core_setBlock (s : State) (i j : Nat) (b : Block) : (s.setBlock i b).core j = s.core j := rfl

@[simp] theorem State.grid_setGrid_same (s : State) (i : Nat) (g : Grid) (h : i < s.grids.length) :
    (s.setGrid i g).grid i = g := by simp [State.grid, State.setGrid, h]

@[simp] theorem State.grid_setGrid_other (s : State) (i j : Nat) (g : Grid) (h : j ≠ i) :
    (s.setGrid i g).grid j = s.grid j := by simp [State.grid, State.setGrid, h.symm]

@[simp] theorem State.wave_setGrid (s : State) (i j : Nat) (g : Grid) : (s.setGrid i g).wave j = s.wave j := rfl
@[simp] theorem State.block_setGrid (s : State) (i j : Nat) (g : Grid) : (s.setGrid i g).block j = s.block j := rfl

@[simp] theorem State.core_setCore (s : State) (i j : Nat) (c : CoreSt) :
    (s.setCore i c).core j = if j = i then c else s.core j := by
  simp [State.core, State.setCore, Sparse.get_set]

@[simp] theorem State.wave_setCore (s : State) (i j : Nat) (c : CoreSt) : (s.setCore i c).wave j = s.wave j := rfl
@[simp] theorem State.block_setCore (s : State) (i j : Nat) (c : CoreSt) : (s.setCore i c).block j = s.block j := rfl

/-! ## Register words -/

@[simp] theorem Wave.reg_setReg (w : Wave) (k j : Nat) (v : Word) : (w.setReg k v).reg j = if j = k then v else w.reg j := by
  simp [Wave.reg, Wave.setReg, Sparse.get_set]

@[simp] theorem Wave.poisoned_setReg (w : Wave) (k j : Nat) (v : Word) :
    (w.setReg k v).poisoned j = if j = k then false else w.poisoned j := by
  simp [Wave.poisoned, Wave.setReg, Sparse.get_set]

@[simp] theorem Wave.reg_setPoison (w : Wave) (k j : Nat) (v : Word) : (w.setPoison k v).reg j = if j = k then v else w.reg j := by
  simp [Wave.reg, Wave.setPoison, Sparse.get_set]

@[simp] theorem Wave.reg_copyReg (w : Wave) (d a j : Nat) : (w.copyReg d a).reg j = if j = d then w.reg a else w.reg j := by
  simp [Wave.reg, Wave.copyReg, Sparse.get_set]

@[simp] theorem Wave.poisoned_copyReg (w : Wave) (d a j : Nat) :
    (w.copyReg d a).poisoned j = if j = d then w.poisoned a else w.poisoned j := by
  simp [Wave.poisoned, Wave.copyReg, Sparse.get_set]

end Sys2Proof.Machine
end

