-- ==== Sys2Proof/Laws/Issue.lean ====
section
/-! SUPPORT. The shared run of an issuing instruction: what an answer can be, and how the wave's PC moves. -/
namespace Sys2Proof.Machine

/-- The wave that a context names is the state's. -/
theorem State.ctx_wave {s : State} {h : Hdr} {c : Ctx} (hc : s.ctx h = some c) : s.waves[c.wi]? = some c.w := by
  unfold State.ctx at hc
  split at hc
  · cases hc
  · split at hc
    · cases hc
    · rename_i w hw
      split at hc
      · injection hc with e; subst e; exact hw
      · cases hc

theorem State.ctx_lt {s : State} {h : Hdr} {c : Ctx} (hc : s.ctx h = some c) : c.wi < s.waves.length :=
  (List.getElem?_eq_some_iff.mp (State.ctx_wave hc)).1

theorem State.ctx_wave_eq {s : State} {h : Hdr} {c : Ctx} (hc : s.ctx h = some c) : s.wave c.wi = c.w := by
  simp [State.wave, State.ctx_wave hc]

/-- What a context holds. -/
theorem State.ctx_fields {s : State} {h : Hdr} {c : Ctx} (hc : s.ctx h = some c) :
    c.h = h ∧ c.bi = c.w.block ∧ c.b = s.block c.w.block ∧ c.g = s.grid (s.block c.w.block).grid ∧
      c.act = c.w.active c.isB h.guard ∧ c.w.life = .running ∧ (c.w.slot c.isB).valid = true := by
  unfold State.ctx at hc
  split at hc
  · cases hc
  · split at hc
    · cases hc
    · split at hc
      · rename_i hl
        injection hc with e; subst e
        simp only [Bool.and_eq_true, beq_iff_eq] at hl
        exact ⟨rfl, rfl, rfl, rfl, rfl, hl.1, hl.2⟩
      · cases hc

/-- An issue in a context. -/
@[simp] theorem issue_some {s : State} {h : Hdr} {c : Ctx} (hc : s.ctx h = some c) (k : Ctx → Out) : issue s h k = k c := by
  simp [issue, hc]

@[simp] theorem guardTraps_nil (s : State) (c : Ctx) (k : Out) : guardTraps s c [] k = k := rfl
@[simp] theorem guardTraps_none (s : State) (c : Ctx) (t : List Check) (k : Out) :
    guardTraps s c (none :: t) k = guardTraps s c t k := rfl
@[simp] theorem guardTraps_some (s : State) (c : Ctx) (x : Byte) (m : LaneMask) (v : DWord) (t : List Check) (k : Out) :
    guardTraps s c (some (x, m, v) :: t) k = .next (s.takeTrap c x m v) := rfl

/-- Checks that all pass leave the rest of the instruction. -/
theorem guardTraps_pass (s : State) (c : Ctx) (ks : List Check) (k : Out) (h : ∀ x ∈ ks, x = none) : guardTraps s c ks k = k := by
  induction ks with
  | nil => rfl
  | cons x t ih =>
    rw [h x (List.mem_cons_self ..), guardTraps_none]
    exact ih fun y hy => h y (List.mem_cons_of_mem _ hy)

/-- A checked instruction traps with one of its checks, or runs on with all of them passed. -/
theorem guardTraps_cases (s : State) (c : Ctx) (ks : List Check) (k : Out) :
    (∃ x m v, some (x, m, v) ∈ ks ∧ guardTraps s c ks k = .next (s.takeTrap c x m v)) ∨
      ((∀ x ∈ ks, x = none) ∧ guardTraps s c ks k = k) := by
  induction ks with
  | nil => exact .inr ⟨by simp, rfl⟩
  | cons a t ih =>
    match a with
    | some (x, m, v) => exact .inl ⟨x, m, v, List.mem_cons_self .., rfl⟩
    | none =>
      rcases ih with ⟨x, m, v, hm, e⟩ | ⟨hn, e⟩
      · exact .inl ⟨x, m, v, List.mem_cons_of_mem _ hm, e⟩
      · exact .inr ⟨by simpa using hn, e⟩

/-- The run of a lane instruction in a context whose checks pass. -/
theorem alu_pass {s : State} {h : Hdr} {c : Ctx} (hc : s.ctx h = some c) (d : Operand) (dw : Nat) (srcs : List (Operand × Nat))
    (a b : Option Operand) (pre : Ctx → List Check) (f : Ctx → Nat → List Word) (hr : c.regCheck [(d, dw)] srcs = none)
    (hp : ∀ x ∈ pre c, x = none) :
    alu h d dw srcs a b pre f s = .next (s.retire c (c.w.writeResult c.act d (f c)) a b) := by
  rw [alu, issue_some hc, guardTraps_pass]
  simpa [hr] using hp

end Sys2Proof.Machine
end

