-- ==== Sys2Proof/Laws/Memory.lean ====
section
/-! SUPPORT. What each operation that writes memory does to it, and that each keeps the canonical form (`Memory.wf`). -/
namespace Sys2Proof.Machine

/-- A fold of updates that leave memory alone leaves it alone. -/
theorem foldl_mem {α : Type} (f : State → α → State) (h : ∀ s a, (f s a).mem = s.mem) (l : List α) (s : State) :
    (l.foldl f s).mem = s.mem := by
  induction l generalizing s with
  | nil => rfl
  | cons a t ih => exact (ih (f s a)).trans (h s a)

/-! ## Updates beside memory -/

@[simp] theorem State.setSecPoison_mem (s : State) (k : Nat) (v : Bool) : (s.setSecPoison k v).mem = s.mem := rfl
@[simp] theorem State.setBlockOf_mem (s : State) (l : Nat) (b : List Byte) : (s.setBlockOf l b).mem = s.mem := rfl
@[simp] theorem State.logError_mem (s : State) (event ukind die index vm : Nat) (d : DWord) :
    (s.logError event ukind die index vm d).mem = s.mem := rfl
@[simp] theorem State.poisonLine_mem (s : State) (l : Nat) : (s.poisonLine l).mem = s.mem :=
  foldl_mem _ (fun s q => s.setSecPoison_mem (256 * l + 64 * q) true) _ s

@[simp] theorem State.setGranuleErr_mem (s : State) (k n : Nat) : (s.setGranuleErr k n).mem = s.mem := rfl
@[simp] theorem State.moved_mem (s : State) : s.moved.mem = s.mem := rfl
@[simp] theorem State.countHbm_mem (s : State) (k : Nat) : (s.countHbm k).mem = s.mem := rfl

@[simp] theorem State.granulePoison_mem (s : State) (k : Nat) : (s.granulePoison k).mem = s.mem := by
  unfold State.granulePoison
  split
  · simp
  · split <;> rfl

/-- What an uncorrectable error does to memory: nothing; it poisons (R70). -/
@[simp] theorem State.uncorrectable_mem (s : State) (k : Nat) : (s.uncorrectable k).mem = s.mem := by
  simp [State.uncorrectable]

@[simp] theorem State.granuleRead_mem (s : State) (k : Nat) : (s.granuleRead k).mem = s.mem := by
  unfold State.granuleRead
  split
  · rfl
  · rfl
  · split <;> simp

@[simp] theorem State.hbmFill_mem (s : State) (base : Nat) (secs : BitVec 4) : (s.hbmFill base secs).mem = s.mem := by
  unfold State.hbmFill
  split
  · rfl
  · refine foldl_mem _ (fun s i => ?_) _ s
    split <;> split <;> simp

@[simp] theorem State.hbmMerge_mem (s : State) (base : Nat) (dirty : BitVec 256) : (s.hbmMerge base dirty).mem = s.mem := by
  unfold State.hbmMerge
  split
  · rfl
  · refine foldl_mem _ (fun s i => ?_) _ s
    dsimp only
    split
    · rfl
    · split <;> simp

@[simp] theorem State.cmpRead_mem (s : State) (k n : Nat) : (s.cmpRead k n).1.mem = s.mem := by
  unfold State.cmpRead
  dsimp only
  split
  · split <;> rfl
  · rfl

@[simp] theorem State.writeBack_mem (s : State) (e : L2Line) : (s.writeBack e).mem = s.mem := by
  simp only [State.writeBack]
  split
  · simp
  · split
    · simp
    · split
      · simp
      · split <;> simp

/-- A line put into its home L2 leaves the bytes of storage as they are (R53, R57). -/
@[simp] theorem State.l2Put_mem (s : State) (e : L2Line) : (s.l2Put e).mem = s.mem := by
  unfold State.l2Put
  dsimp only
  split
  · split <;> simp
  · split
    · split <;> simp
    · rfl

@[simp] theorem State.l2Access_mem (s : State) (base cls : Nat) (q : BitVec 4) (m : BitVec 256) :
    (s.l2Access base cls q m).mem = s.mem := by
  simp only [State.l2Access]
  split
  · dsimp only
    split <;> simp
  · simp only [State.l2Put_mem]
    split <;> simp

/-- Making a compressed line plain leaves its plain form, which memory holds, as it is (R107). -/
@[simp] theorem State.plainLine_mem (s : State) (cls line : Nat) : (s.plainLine cls line).mem = s.mem := by
  unfold State.plainLine
  dsimp only
  split
  · rfl
  · split <;> split <;> simp

@[simp] theorem State.l2TouchAll_mem (s : State) (ks : List Nat) (cls : Nat) (w : Bool) : (s.l2TouchAll ks cls w).mem = s.mem :=
  foldl_mem _ (fun s k => by cases w <;> simp) _ s

@[simp] theorem State.l2Touch_mem (s : State) (k cls : Nat) (w : Bool) : (s.l2Touch k cls w).mem = s.mem :=
  s.l2TouchAll_mem [k] cls w

/-! ## Writes -/

@[simp] theorem State.setByte_mem (s : State) (k : Nat) (v : Byte) : (s.setByte k v).mem = Sparse.set 0 s.mem k v := rfl

@[simp] theorem State.writeBytes_mem (s : State) (kvs : List (Nat × Byte)) : (s.writeBytes kvs).mem = Sparse.setAll 0 s.mem kvs := by
  simp only [State.writeBytes]
  split
  · rfl
  · exact foldl_mem (fun s sec => s.setSecPoison (sec * 64) false) (fun _ _ => rfl) _ _

@[simp] theorem State.writePoisoned_mem (s : State) (kvs : List (Nat × Byte)) :
    (s.writePoisoned kvs).mem = Sparse.setAll 0 s.mem kvs :=
  foldl_mem (fun s k => s.setSecPoison k true) (fun _ _ => rfl) _ _

/-- A byte that a write does not name reads as before. -/
theorem State.writeBytes_get_other (s : State) (kvs : List (Nat × Byte)) {k : Nat} (h : ∀ kv ∈ kvs, kv.1 ≠ k) :
    Sparse.get 0 (s.writeBytes kvs).mem k = Sparse.get 0 s.mem k := by
  rw [State.writeBytes_mem]; exact Sparse.get_setAll_other 0 kvs s.mem h

/-- A masked write performed at its homes writes its bytes; no window of a handler is named (R53, R107). -/
theorem State.homeStore_mem (s : State) (cls : Nat) (kvs : List (Nat × Byte)) (h : ∀ kv ∈ kvs, kv.1 < windowTop) :
    (s.homeStore cls kvs).mem = Sparse.setAll 0 s.mem kvs := by
  have hw : kvs.filter (fun kv => decide (windowTop ≤ kv.1)) = [] := by
    simpa using fun a b hab => h (a, b) hab
  have hk : kvs.filter (fun kv => decide (kv.1 < windowTop)) = kvs := by
    simpa using fun a b hab => h (a, b) hab
  simp only [State.homeStore, hw, hk, if_true, State.l2TouchAll_mem, State.writeBytes_mem]
  split
  · rfl
  · rw [foldl_mem _ fun s ln => s.plainLine_mem cls ln]

/-! ## The canonical form -/

theorem State.setByte_wf {s : State} (k : Nat) (v : Byte) (h : Memory.wf s = true) : Memory.wf (s.setByte k v) = true :=
  Sparse.wf_set 0 k v h

theorem State.writeBytes_wf {s : State} (kvs : List (Nat × Byte)) (h : Memory.wf s = true) :
    Memory.wf (s.writeBytes kvs) = true := by
  simpa [Memory.wf] using Sparse.wf_setAll 0 kvs h

theorem State.writePoisoned_wf {s : State} (kvs : List (Nat × Byte)) (h : Memory.wf s = true) :
    Memory.wf (s.writePoisoned kvs) = true := by
  simpa [Memory.wf] using Sparse.wf_setAll 0 kvs h

/-- DISCARD's zeros (R131). -/
theorem State.homeDiscard_wf {s : State} (cls : Nat) (secs : List Nat) (h : Memory.wf s = true) :
    Memory.wf (s.homeDiscard cls secs) = true := by
  simp only [State.homeDiscard, Memory.wf]
  refine Sparse.wf_filter 0 _ ?_
  rw [foldl_mem _ fun s ln => ?_]
  · exact h
  · split
    · rfl
    · split <;> simp

/-- Writes that cover lines whole (R90, R413). -/
theorem State.coverLines_wf {s : State} (inside : Nat → Bool) (cells : List Host.Cell) (h : Memory.wf s = true) :
    Memory.wf (s.coverLines inside cells) = true := Sparse.wf_setAll 0 _ (Sparse.wf_filter 0 _ h)

/-- The dump (R413). -/
theorem State.writeDump_wf {s : State} (cause : Nat) (h : Memory.wf s = true) : Memory.wf (s.writeDump cause) = true := by
  unfold State.writeDump
  split
  · exact h
  · simp only [Memory.wf, State.coverLines]
    exact Sparse.wf_setAll 0 _ (Sparse.wf_filter 0 _ h)

/-- A reset (R401, R409). -/
theorem State.afterReset_wf {s : State} (h : Memory.wf s = true) : Memory.wf s.afterReset = true := Sparse.wf_filter 0 _ h

/-- The heap's line map reads zero (R90). -/
theorem State.clearLineMap_wf {s : State} (h : Memory.wf s = true) : Memory.wf s.clearLineMap = true := State.coverLines_wf _ _ h

/-- Placing an instruction. -/
theorem State.withFetchWord_wf {s : State} (nbits w : Nat) (h : Memory.wf s = true) : Memory.wf (s.withFetchWord nbits w) = true :=
  Sparse.wf_setAll 0 _ h

end Sys2Proof.Machine
end

