-- ==== Sys2Proof/Laws/Registers.lean ====
section
/-! SUPPORT. What writing registers can do: the keys of the register files are disjoint, a write touches only `regs` and `poison`, and
a register no write names reads as before. -/
namespace Sys2Proof.Machine

/-! ## Keys -/

theorem Wave.ringN_le (w : Wave) : w.ringN ≤ 256 := by
  have := w.ring.isLt
  simp only [Wave.ringN, ringSize]; omega

theorem Wave.ringN_pos (w : Wave) : 0 < w.ringN := by simp only [Wave.ringN, ringSize]; omega

/-- Window registers lie below every other file. -/
theorem Wave.vKey_lt (w : Wave) (i : Nat) {l : Nat} (h : l < 32) : w.vKey i l < 8192 := by
  have h1 := Nat.mod_lt (w.wb + i) w.ringN_pos
  have h2 := w.ringN_le
  simp only [Wave.vKey, ringKey]; omega

theorem Wave.vKey_lane {w : Wave} {i j l m : Nat} (hl : l < 32) (hm : m < 32) (h : w.vKey i l = w.vKey j m) :
    l = m ∧ (w.wb + i) % w.ringN = (w.wb + j) % w.ringN := by
  simp only [Wave.vKey, ringKey] at h; omega

theorem oKey_range {r l : Nat} (hr : r < 8) (hl : l < 32) : 8192 ≤ oKey r l ∧ oKey r l < 8448 := by simp only [oKey]; omega
theorem lKey_range {r l : Nat} (hr : r < 4) (hl : l < 32) : 8448 ≤ lKey r l ∧ lKey r l < 8576 := by simp only [lKey]; omega
theorem kKey_range {n : Nat} : 8576 ≤ kKey n := by simp only [kKey]; omega

/-! ## Only registers -/

/-- Two waves that differ at most in their register words and poison. -/
def Wave.SameButRegs (w v : Wave) : Prop := v = { w with regs := v.regs, poison := v.poison }

theorem Wave.SameButRegs.refl (w : Wave) : w.SameButRegs w := rfl

theorem Wave.SameButRegs.trans {w v u : Wave} (h : w.SameButRegs v) (h' : v.SameButRegs u) : w.SameButRegs u := by
  rw [Wave.SameButRegs] at *; rw [h', h]

theorem Wave.sameButRegs_setReg (w : Wave) (k : Nat) (v : Word) : w.SameButRegs (w.setReg k v) := rfl
theorem Wave.sameButRegs_setPoison (w : Wave) (k : Nat) (v : Word) : w.SameButRegs (w.setPoison k v) := rfl
theorem Wave.sameButRegs_copyReg (w : Wave) (d a : Nat) : w.SameButRegs (w.copyReg d a) := rfl
theorem Wave.sameButRegs_shiftL (w : Wave) (l : Nat) (v : Word) : w.SameButRegs (w.shiftL l v) :=
  (((w.sameButRegs_copyReg _ _).trans (Wave.sameButRegs_copyReg _ _ _)).trans (Wave.sameButRegs_copyReg _ _ _)).trans
    (Wave.sameButRegs_setReg _ _ _)

/-- The key an operand names is not changed by writing registers. -/
theorem Wave.SameButRegs.opKey {w v : Wave} (h : w.SameButRegs v) (o : Operand) (l j : Nat) : v.opKey o l j = w.opKey o l j := by
  rw [h]; rfl

theorem Wave.SameButRegs.foldl {α : Type} (f : Wave → α → Wave) (h : ∀ (w : Wave) a, w.SameButRegs (f w a)) (ls : List α) (w : Wave) :
    w.SameButRegs (ls.foldl f w) := by
  induction ls generalizing w with
  | nil => exact .refl w
  | cons a t ih => exact (h w a).trans (ih _)

theorem Wave.sameButRegs_writeWords (w : Wave) (d : Operand) (l j : Nat) (vs : List Word) : w.SameButRegs (w.writeWords d l j vs) := by
  induction vs generalizing w j with
  | nil => exact .refl w
  | cons v t ih =>
    unfold Wave.writeWords
    split
    · exact (w.sameButRegs_setReg _ v).trans (ih _ _)
    · exact ih _ _

theorem Wave.sameButRegs_writeLane (w : Wave) (d : Operand) (l : Nat) (vs : List Word) : w.SameButRegs (w.writeLane d l vs) := by
  have h := w.sameButRegs_writeWords d l 0 vs
  have hs := fun u : Wave => Wave.SameButRegs.foldl (fun w v => w.shiftL l v) (fun w v => w.sameButRegs_shiftL l v) vs u
  unfold Wave.writeLane
  dsimp only
  split <;> first | exact h.trans (hs _) | exact h

/-- With nothing counted in this step the copy to a reuse register writes registers only (R177). -/
theorem Wave.sameButRegs_copyTo {w old : Wave} (act : LaneMask) (r : Nat) (o : Operand) (h : w.counted = old.counted) :
    w.SameButRegs (w.copyTo old act r o) := by
  have hc : w.counted.take old.counted.length ++ (w.counted.drop old.counted.length).map (fun e => (e.1, e.2.spare r)) =
      w.counted := by simp [h]
  unfold Wave.copyTo
  dsimp only
  rw [hc]
  exact Wave.SameButRegs.foldl (fun w l => w.setReg (oKey r l) (old.read o l)) (fun w l => w.sameButRegs_setReg _ _) (lanesOf act) w

/-- With nothing counted in this step the reuse hints write registers only (R177). -/
theorem Wave.sameButRegs_reuse {w old : Wave} (act : LaneMask) (hint : Hint) (a b : Option Operand) (h : w.counted = old.counted) :
    w.SameButRegs (w.reuse old act hint a b) := by
  have h1 : w.SameButRegs (match hint.reuseA, a with
    | true, some o => w.copyTo old act 0 o
    | _, _ => w) := by
    split
    · exact Wave.sameButRegs_copyTo act 0 _ h
    · exact .refl w
  unfold Wave.reuse
  dsimp only
  split
  · refine h1.trans (Wave.sameButRegs_copyTo act 1 _ ?_)
    rw [h1]; exact h
  · exact h1

/-! ## Words that no write names -/

/-- A fold that leaves a word alone at every turn leaves it alone. -/
theorem Wave.foldl_reg {α : Type} (f : Wave → α → Wave) (k : Nat) (ls : List α) (h : ∀ w : Wave, ∀ a ∈ ls, (f w a).reg k = w.reg k) (w : Wave) :
    (ls.foldl f w).reg k = w.reg k := by
  induction ls generalizing w with
  | nil => rfl
  | cons a t ih =>
    exact (ih (fun w x hx => h w x (List.mem_cons_of_mem _ hx)) (f w a)).trans (h w a (List.mem_cons_self ..))

theorem Wave.writeWords_reg_other (w : Wave) (d : Operand) (l j : Nat) (vs : List Word) (k : Nat)
    (h : ∀ i < vs.length, w.opKey d l (j + i) ≠ some k) : (w.writeWords d l j vs).reg k = w.reg k := by
  induction vs generalizing w j with
  | nil => rfl
  | cons v t ih =>
    have step : ∀ u : Wave, w.SameButRegs u → (u.writeWords d l (j + 1) t).reg k = u.reg k := fun u hu =>
      ih u (j + 1) fun i hi => by
        rw [hu.opKey, Nat.add_right_comm]
        exact h (i + 1) (by simpa using hi)
    unfold Wave.writeWords
    split
    · rename_i key hk
      rw [step _ (w.sameButRegs_setReg key v), Wave.reg_setReg, if_neg]
      exact fun e => h 0 (by simp) (by simpa [e] using hk)
    · exact step w (.refl w)

/-- L0 to L3 of a lane after a result is shifted in (R178). -/
theorem Wave.shiftL_reg (w : Wave) (l : Nat) (v : Word) :
    (w.shiftL l v).reg (lKey 0 l) = v ∧ (w.shiftL l v).reg (lKey 1 l) = w.reg (lKey 0 l) ∧
      (w.shiftL l v).reg (lKey 2 l) = w.reg (lKey 1 l) ∧ (w.shiftL l v).reg (lKey 3 l) = w.reg (lKey 2 l) := by
  simp [Wave.shiftL, lKey]

theorem Wave.shiftL_reg_other (w : Wave) (l : Nat) (v : Word) (k : Nat) (h : ∀ r < 4, k ≠ lKey r l) :
    (w.shiftL l v).reg k = w.reg k := by
  simp [Wave.shiftL, h 0 (by decide), h 1 (by decide), h 2 (by decide), h 3 (by decide)]

end Sys2Proof.Machine
end

