-- ==== Sys2Proof/Laws/Retire.lean ====
section
/-! SUPPORT. Everything that retiring, waiting, taking a trap and returning from one can do to the state. -/
namespace Sys2Proof.Machine

/-! ## Slots and paths -/

@[simp] theorem Wave.slot_setSlot_same (w : Wave) (isB : Bool) (sl : Slot) : (w.setSlot isB sl).slot isB = sl := by
  cases isB <;> rfl
@[simp] theorem Wave.slot_setSlot_other (w : Wave) (isB : Bool) (sl : Slot) : (w.setSlot isB sl).slot (!isB) = w.slot (!isB) := by
  cases isB <;> rfl
@[simp] theorem Wave.path_setPath_same (w : Wave) (isB : Bool) (p : Path) : (w.setPath isB p).path isB = p := by cases isB <;> rfl
@[simp] theorem Wave.path_setPath_other (w : Wave) (isB : Bool) (p : Path) : (w.setPath isB p).path (!isB) = w.path (!isB) := by
  cases isB <;> rfl
@[simp] theorem Wave.setPath_regs (w : Wave) (isB : Bool) (p : Path) : (w.setPath isB p).regs = w.regs := by cases isB <;> rfl
@[simp] theorem Wave.setPath_poison (w : Wave) (isB : Bool) (p : Path) : (w.setPath isB p).poison = w.poison := by cases isB <;> rfl

/-! ## Retiring (R177, R197, R200, R216) -/

/-- Nothing but the wave changes. -/
theorem State.retire_eq (s : State) (c : Ctx) (w : Wave) (a b : Option Operand) :
    s.retire c w a b = { s with waves := (s.retire c w a b).waves } := rfl

theorem State.retire_wave (s : State) (c : Ctx) (w : Wave) (a b : Option Operand) (h : c.wi < s.waves.length) :
    (s.retire c w a b).wave c.wi = ((w.reuse c.w c.act c.h.hint a b).issued c.isB c.h s.clk).step12 c.isB :=
  State.wave_setWave_same s c.wi _ h

theorem State.retire_wave_other (s : State) (c : Ctx) (w : Wave) (a b : Option Operand) {j : Nat} (h : j ≠ c.wi) :
    (s.retire c w a b).wave j = s.wave j := State.wave_setWave_other s c.wi j _ h

/-- With no hint to copy a source, the registers of a retired wave are those its effect left. -/
theorem Wave.reuse_none (w old : Wave) (act : LaneMask) (hint : Hint) (a b : Option Operand) (ha : hint.reuseA = false ∨ a = none)
    (hb : hint.reuseB = false ∨ b = none) : w.reuse old act hint a b = w := by
  rcases ha with ha | rfl <;> rcases hb with hb | rfl <;> simp_all [Wave.reuse]

@[simp] theorem Wave.issued_regs (w : Wave) (isB : Bool) (h : Hdr) (clk : Nat) : (w.issued isB h clk).regs = w.regs := rfl
@[simp] theorem Wave.issued_poison (w : Wave) (isB : Bool) (h : Hdr) (clk : Nat) : (w.issued isB h clk).poison = w.poison := rfl
@[simp] theorem Wave.issued_path (w : Wave) (isB : Bool) (h : Hdr) (clk : Nat) (k : Bool) : (w.issued isB h clk).path k = w.path k := by
  cases k <;> cases isB <;> rfl
@[simp] theorem Wave.step12_regs (w : Wave) (isB : Bool) : (w.step12 isB).regs = w.regs := Wave.setPath_regs ..
@[simp] theorem Wave.step12_poison (w : Wave) (isB : Bool) : (w.step12 isB).poison = w.poison := Wave.setPath_poison ..
/-- The slot goes on at the next instruction. -/
@[simp] theorem Wave.step12_path (w : Wave) (isB : Bool) :
    (w.step12 isB).path isB = { w.path isB with pc := (w.path isB).pc + 12 } := Wave.path_setPath_same ..
@[simp] theorem Wave.step12_path_other (w : Wave) (isB : Bool) : (w.step12 isB).path (!isB) = w.path (!isB) :=
  Wave.path_setPath_other ..

/-! ## Waiting (R281) -/

theorem State.waits_eq (s : State) (c : Ctx) (r : Option DWord) :
    s.waits c r = { s with waves := (s.waits c r).waves, stopped := (s.waits c r).stopped } := by
  unfold State.waits
  split <;> rfl

/-- A waiting instruction leaves its slot where it is. -/
theorem State.waits_path (s : State) {c : Ctx} (h : c.wi < s.waves.length) (hw : s.wave c.wi = c.w) (r : Option DWord) (k : Bool) :
    ((s.waits c r).wave c.wi).path k = c.w.path k := by
  unfold State.waits
  split
  · exact congrArg (fun w => w.path k) hw
  · rw [State.wave_setWave_same s c.wi _ h]
    cases hb : c.isB <;> cases k <;> simp [Wave.setSlot, Wave.path, Wave.slot, Ctx.held, hb]

/-! ## Traps (R208, R395, R396) -/

/-- A trap in a block with a handler for its VM: the wave halts with its record and joins its cluster's queue, and nothing
else changes. -/
theorem State.takeTrapAt_handled {s : State} {wi : Nat} (t : TrapRec) (hs : (s.block (s.wave wi).block).svc = false)
    (hv : (Sparse.get 0 s.svcImg (s.grid (s.block (s.wave wi).block).grid).vm : DWord).getLsbD 63 = true) :
    s.takeTrapAt wi t =
      { s.setWave wi { s.wave wi with life := .trapped, trap := some t, stalls := [], cancel := none } with
        svcQueue := Sparse.set [] s.svcQueue (clusterOf (s.block (s.wave wi).block).core)
          (s.svcOf (clusterOf (s.block (s.wave wi).block).core) ++ [wi]) } := by
  unfold State.takeTrapAt
  rw [if_neg (by simp [hs])]
  exact if_pos hv

/-- A trap in a block with no handler kills it (R395). -/
theorem State.takeTrapAt_unhandled {s : State} {wi : Nat} (t : TrapRec) (hs : (s.block (s.wave wi).block).svc = false)
    (hv : (Sparse.get 0 s.svcImg (s.grid (s.block (s.wave wi).block).grid).vm : DWord).getLsbD 63 = false) :
    s.takeTrapAt wi t = (s.setWave wi { s.wave wi with life := .trapped, trap := some t, stalls := [], cancel := none }).kill
      (s.wave wi).block Cause.noHandler := by
  unfold State.takeTrapAt
  rw [if_neg (by simp [hs])]
  exact if_neg (ne_true_of_eq_false hv)

/-- A wave left with a lane, with nothing to fill or to unwind, is the wave itself (R202, R206, R288). -/
theorem State.settleWave_quiet {s : State} {wi : Nat} {w : Wave} (hf : w.fill.unwindAll = w) (hl : w.launched &&& ~~~ w.exited ≠ 0) :
    s.settleWave wi w.split w = (s.setWave wi w).addJobs (s.block w.block).core (splitJobs wi w.split w.split) := by
  simp only [State.settleWave, hf]
  exact if_neg hl

/-- A return from a trap whose state passes R213 changes the wave's life and its record and has its slot fetch again; the wave is then
settled as one that reached the state by itself. -/
theorem State.returnFromTrap_resumes {s : State} {wi : Nat} (h : (s.wave wi).resumable = true) :
    s.returnFromTrap wi = s.settleWave wi (s.wave wi).split { (s.wave wi).refetch with life := .running, trap := none } := by
  simp [State.returnFromTrap, h]

theorem State.returnFromTrap_kills {s : State} {wi : Nat} (h : (s.wave wi).resumable = false) :
    s.returnFromTrap wi = s.kill (s.wave wi).block Cause.resumeInvalid := by
  simp [State.returnFromTrap, h]

end Sys2Proof.Machine
end

