-- ==== Sys2Proof/Tests/Slice0.lean ====
section
/-! SUPPORT. Small tests: ill-formed instructions, decoding of words written out from the manual's encodings, single steps, and for
each statement with hypotheses a state and operands that meet them (`test_meets_<statement>`). -/

namespace Sys2Proof.Tests

open Sys2Proof.Machine Sys2Proof.Claims

set_option Elab.async false

/-! ## Helpers -/

/-- No guard, no hints. -/
def hd : Hdr := ⟨.always, ⟨false, 0, false, false⟩⟩

/-- One wave of 32 lanes on core 0, its slot A issuing. -/
def st : State := { State.reset.withFetchWord 96 0 with cur := some ⟨0, false, 0⟩ }

/-- The same with the wave, the block or the grid changed. -/
def stW (f : Wave → Wave) : State := { st with waves := st.waves.map f }
def stB (f : Block → Block) : State := { st with blocks := st.blocks.map f }
def stG (f : Grid → Grid) : State := { st with grids := st.grids.map f }

/-- The context of an unguarded instruction exists and has a property. -/
def meets (s : State) (p : Ctx → Bool) : Bool := (s.ctx hd).any p

/-- An answer is a next state with a property. -/
def goes (o : Out) (p : State → Bool) : Bool :=
  match o with
  | .next t => p t
  | _ => false

/-- The context of the base state. -/
theorem test_meets_ctx : (st.ctx hd).isSome = true := by decide +kernel

/-! ## Statements about words, steps and reset -/

theorem test_meets_EncodeDecodeRoundTrip :
    (Instr.iadd hd .i32 true (.v 127) (.vx 3 63) (.const 63)).wellFormed = true ∧
    (Instr.iadd hd .i32 true (.v 127) (.vx 3 63) (.const 63)).isEvent = false := by decide

theorem test_meets_DecodedWordIsCanonical : decode (wordOf 0x001 0 0 0 0 0 0 0) = .ok (.nop hd) := by decide +kernel

/-- The word of NOP stands at the program counter. -/
def stNop : State := State.reset.withFetchWord 96 (0x001 * 2 ^ 84)

/-- The same with the word of a NOP under guard F0, whose lane 31 is poisoned. -/
def stHurt : State :=
  { State.reset.withFetchWord 96 (0x001 * 2 ^ 84 + 2 ^ 80) with
    waves := (State.reset.withFetchWord 96 0).waves.map fun w => { w with poison := [(flagKey 0 31, true)] } }

/-- What a step needs to issue the first instruction of slot A, and what the instruction leaves of it. -/
def issues (s : State) (h : Hdr) (w : IWord) (p : State → State → Bool) : Bool :=
  s.inputs == [] && s.actions == [.issue 0 false] && (s.wave 0).toReissue == none &&
    match s.fetch 0 false with
    | .word s' w' => w' == w && !((s'.block (s'.wave 0).block).svc && handlerForbids (.nop h)) &&
        goes (exec (.nop h) { s' with cur := some ⟨0, false, w⟩ }) (p s')
    | _ => false

theorem test_meets_StepRunsDecodedInstruction :
    stNop.strike = stNop ∧ stNop.soft.upsets = [] ∧
    issues stNop hd (wordOf 0x001 0 0 0 0 0 0 0) (fun s' _ => s'.flagTrap 0 false (.nop hd) == none) = true ∧
    decode (wordOf 0x001 1 0 0 0 0 0 0) = .ok (.nop { hd with guard := .ifTrue 0 }) ∧
    issues stHurt { hd with guard := .ifTrue 0 } (wordOf 0x001 1 0 0 0 0 0 0) (fun s' t =>
      s'.flagTrap 0 false (.nop { hd with guard := .ifTrue 0 }) == some 0x80000000 && (t.wave 0).trap == none && !t.stopped && t.l2.moves == s'.l2.moves) = true := by
  refine ⟨rfl, rfl, ?_, ?_, ?_⟩ <;> decide +kernel

theorem test_meets_StepTakesInputFirst : st.strike = st ∧ ∃ t, exec .ttctlCommit { st with inputs := [] } = .next t ∧ st.off = false :=
  ⟨rfl, _, rfl, rfl⟩

theorem test_meets_MemoryCanonicalKept : Memory.wf stNop = true ∧ goes (step stNop) (fun _ => true) = true := by decide +kernel

theorem test_meets_StoppedDevice :
    (∃ t, step { State.reset with off := true, inputs := [.ttctlCommit] } = .next t) ∧ ({ st with fatal := 4 } : State).inputs = [] ∧
    ({ st with fatal := 4 } : State).soft.upsets = [] :=
  ⟨⟨_, rfl⟩, rfl, rfl⟩

/-! ## Statements about traps, registers and lane instructions -/

theorem test_meets_TrapsAndReturn :
    meets { st with svcImg := [(0, 2 ^ 63)] } (fun c => !c.b.svc &&
      (Sparse.get 0 [(0, 2 ^ 63)] c.g.vm : DWord).getLsbD 63) = true ∧
    ((stW fun w => { w with life := .trapped }).wave 0).life ≠ .running ∧ (let w := (stW fun w => { w with life := .handled, trap := some ⟨1, true, 1, 0, 0, 0⟩ }).wave 0
     w.resumable = true ∧ w.trap = some ⟨1, true, 1, 0, 0, 0⟩ ∧ w.split = [] ∧ (w.slot false).valid = true ∧ w.depth ≤ (w.path false).depth ∧
      w.launched &&& ~~~ w.exited ≠ 0) ∧
    (let s := stW fun w => { w with life := .handled, exited := 0xFFFFFFFF, slotA := { w.slotA with valid := false } }
     (s.wave 0).resumable = true ∧ (s.wave 0).launched &&& ~~~ (s.wave 0).exited = 0 ∧ 0 < s.waves.length) ∧
    ((stW fun w => { w with nest := [(0, 64)] }).wave 0).resumable = false := by decide +kernel

theorem test_meets_RegisterChecks :
    meets (stW fun w => { w with xreg := [(127, 1)] }) (fun c => c.act.getLsbD 31 && ((c.w.xOf 3 31).toNat + 30) % 2 != 0) = true ∧
    meets st (fun c => !c.w.indexOdd c.act [(.v 31, 2)] && c.w.regBound c.act [(.v 31, 2)] == some 0xFFFFFFFF &&
      decide (c.w.win < 31 + 2)) = true ∧
    meets (stW fun w => { w with poison := [(w.vKey 31 31, true)] }) (fun c =>
      c.w.regBound c.act [(.v 31, 1)] == none && c.w.regPoison c.act [(.v 31, 1)] == some 0x80000000) = true ∧
    meets (stW fun w => { w with xreg := [(127, 31)] }) (fun c => c.act.getLsbD 31 &&
      decide (c.w.win < (c.w.xOf 3 31).toNat + 0 + 1 + 0 + 1)) = true := by decide +kernel

/-! ## Decoding

Every opcode of R226 with its fields written out from its entry (R214-R221 and the entry's rule), and the words the manual itself
prints. -/

/-- Each word decodes to its instruction, and the encoder gives the word back. -/
def reads (l : List (IWord × Instr)) : Bool := l.all fun p => decide (decode p.1 = .ok p.2) && encode p.2 == p.1

/-- No modifier of R265. -/
def fm : FMod := ⟨false, false, false, false, false, false⟩

/-- The words the manual prints in its examples (files 10, 12, 13, 14, 15, 19 and 22). -/
theorem test_decode_printed_words : reads [
    (0x50330280#32 ++ 0xB2100000#32 ++ 0x03250008#32,
      .ffma ⟨.ifTrue 2, ⟨false, 0, true, false⟩⟩ .f32 fm (.v 10) (.v 11) (.k 4) (.o 1)),
    (0x710001C0#32 ++ 0x20000000#32 ++ 0x00034400#32, .cvt hd .f8a .f32 false (.v 7) (.v 2)),
    (0x12000000#32 ++ 0#32 ++ 0x003C6000#32, .call hd 12 15),
    (0x90000180#32 ++ 0x40140000#32 ++ 0x01005300#32, .ld hd ⟨.n32, .acq, false, .device⟩ (.v 6) (.v 4) (.v 5) 0x40),
    (0xD2209124#32 ++ 0x39140002#32 ++ 0x201C0800#32, .taccst hd .relu (.t 4) (.t 3) (.t 5) 7 (.const 32)),
    (0xC0010108#32 ++ 0#32 ++ 0#32, .osclook ⟨.ifTrue 0, ⟨false, 0, false, false⟩⟩ false (.v 4) (.k 0)),
    (0xC0210780#32 ++ 0xB0000000#32 ++ 0#32, .oscfill ⟨.ifTrue 0, ⟨false, 0, false, false⟩⟩ (.v 30) (.v 11)),
    (0xD000910A#32 ++ 0#32 ++ 0#32, .tdef hd (.t 4) (.k 32)),
    (0xD13091A4#32 ++ 0x19140000#32 ++ 0x00100000#32, .tmms hd (.t 6) (.t 1) (.t 5) 4),
    (0xE0009164#32 ++ 0x70000000#32 ++ 0#32, .tfft hd (.t 5) (.t 7) 0)] = true := by decide +kernel

theorem test_decode_system : reads [
    (wordOf 0x001 0 0 0 0 0 0 0xF0, .nop ⟨.always, ⟨true, 7, false, false⟩⟩),
    (wordOf 0x002 0 0 0 0 0xBEEF 0 0, .trap hd 0xBEEF),
    (wordOf 0x003 0 0 0 0 0x0001 0 0, .bkpt hd 1),
    (wordOf 0x004 8 0 0 0 0 0 0, .yieldI ⟨.ifFalse 3, ⟨false, 0, false, false⟩⟩),
    (wordOf 0x010 0 0x086 0 0 0x18 0 0, .srd hd 0x18 (.k 6)),
    (wordOf 0x011 0 0 0x23F 0 0x0A 0 0, .swr hd 0x0A (.const 63)),
    (wordOf 0x020 0 0 0 0 0 3 0, .icinv hd .device),
    (wordOf 0x021 0 0 0 0 0 0 0, .wsync hd),
    (wordOf 0x030 0 0x0C9 0x082 0 0 0 0, .lnch hd (.o 1) (.k 2))] = true := by decide +kernel

theorem test_decode_control : reads [
    (wordOf 0x100 0 0 0 0 0xFFFFFFFD 0 0, .bra hd 0xFFFFFFFD),
    (wordOf 0x101 0 0 0x0E5 0 6 0 0, .brc hd (.nf 1) 6),
    (wordOf 0x102 0 0x0EF 0 0 0 0 0, .jmask hd (.j 7)),
    (wordOf 0x103 0 0 0x0E8 0 0 0 0, .join hd (.j 0)),
    (wordOf 0x110 0 0 0x201 0 9 0 0, .ifI hd (.const 1) 9),
    (wordOf 0x111 0 0 0 0 12 0 0, .elseI hd 12),
    (wordOf 0x112 0 0 0 0 0 0 0, .endifI hd),
    (wordOf 0x113 0 0 0 0 0 0 0, .loop hd),
    (wordOf 0x114 0 0 0x0E0 0 2 0 0, .breakI hd (.f 0) 2),
    (wordOf 0x115 0 0 0x0E7 0 63 0 0, .cont hd (.nf 3) 63),
    (wordOf 0x116 0 0 0 0 0xFFFFFFF7 0 0, .endloop hd 0xFFFFFFF7),
    (wordOf 0x120 0 0 0 0 30 0x50 0, .call hd 10 30),
    (wordOf 0x121 1 0 0x004 0x0D0 0 0xF8 0, .calli ⟨.ifTrue 0, ⟨false, 0, false, false⟩⟩ 31 (.v 4) .zero),
    (wordOf 0x122 0 0 0 0 0 0 0, .ret hd),
    (wordOf 0x130 0 0 0 0 0 0 0, .exit hd)] = true := by decide +kernel

theorem test_decode_waits : reads [
    (wordOf 0x200 0 0 0 0 0x00FC1FC3 0 0, .waitc hd 3 63 1 63),
    (wordOf 0x201 0 0 0x204 0 0 8 0, .twait hd true (.const 4)),
    (wordOf 0x202 0 0x005 0x082 0 0 0 0, .tfirst hd (.v 5) (.k 2)),
    (wordOf 0x210 0 0 0 0 0x0F 0x00 0, .barArrive hd .bb 15),
    (wordOf 0x210 0 0 0x0D0 0 0x23 0x10 0, .barWait hd .gb 3 .zero),
    (wordOf 0x210 0 0 0 0 0x17 0x20 0, .barSync hd .cb 7),
    (wordOf 0x211 0 0x0E2 0 0 0x14 0 0, .barph hd .cb 4 (.f 2))] = true := by decide +kernel

theorem test_decode_integer : reads [
    (wordOf 0x300 0 1 2 3 0 0x081 0, .iadd hd .i16x2 true (.v 1) (.v 2) (.v 3)),
    (wordOf 0x301 0 1 2 3 0x0E1 0x041 0, .iaddc hd .n32 true (.v 1) (.v 2) (.v 3) (.f 1)),
    (wordOf 0x302 0 1 2 3 0 0x0C0 0, .isub hd .n16x2 false (.v 1) (.v 2) (.v 3)),
    (wordOf 0x303 0 1 2 3 0 0x000 0, .imul hd .i32 (.v 1) (.v 2) (.v 3)),
    (wordOf 0x304 0 1 2 3 0 0x040 0, .imulh hd .n32 (.v 1) (.v 2) (.v 3)),
    (wordOf 0x305 0 1 2 3 4 0x001 0, .imad hd .i32 true (.v 1) (.v 2) (.v 3) (.v 4)),
    (wordOf 0x306 0 2 4 0x082 0 0x2C0 0, .iadd64 hd .b64 (.v 2) (.v 4) (.k 2)),
    (wordOf 0x307 0 2 3 5 6 0x040 0, .imad64 hd .n32 (.v 2) (.v 3) (.v 5) (.v 6)),
    (wordOf 0x308 0 1 2 3 0 0x000 0, .imin hd .i32 (.v 1) (.v 2) (.v 3)),
    (wordOf 0x309 0 1 2 3 0 0x0C0 0, .imax hd .n16x2 (.v 1) (.v 2) (.v 3)),
    (wordOf 0x30A 0 1 2 0 0 0x081 0, .iabs hd .i16x2 true (.v 1) (.v 2)),
    (wordOf 0x30B 0 0x0E3 2 3 0 0x045 0, .icmp hd .n32 .ge (.f 3) (.v 2) (.v 3)),
    (wordOf 0x30C 0 1 2 3 0x0E6 0x100 0, .isel hd .f32 (.v 1) (.v 2) (.v 3) (.nf 2)),
    (wordOf 0x30D 0 1 2 3 4 0x201 0, .idot4 hd .n8 true (.v 1) (.v 2) (.v 3) (.v 4)),
    (wordOf 0x310 0 0x081 0x0E8 0 0 0 0, .mov hd .i32 (.k 1) (.j 0)),
    (wordOf 0x311 0 0x088 0 0 0xFFFFFFFE 0x2C0 0, .movi hd .b64 (.k 8) 0xFFFFFFFE)] = true := by decide +kernel

theorem test_decode_bit : reads [
    (wordOf 0x400 0 1 2 3 0 0 0, .shl hd .i32 (.v 1) (.v 2) (.v 3)),
    (wordOf 0x401 0 1 2 3 0 0 0, .shr hd .i32 (.v 1) (.v 2) (.v 3)),
    (wordOf 0x402 0 1 2 3 0 0 0, .sar hd .i32 (.v 1) (.v 2) (.v 3)),
    (wordOf 0x403 0 1 2 3 0 0 0, .rotl hd .i32 (.v 1) (.v 2) (.v 3)),
    (wordOf 0x404 0 1 2 3 4 0 0, .fshl hd .i32 (.v 1) (.v 2) (.v 3) (.v 4)),
    (wordOf 0x405 0 1 2 3 4 0 0, .fshr hd .i32 (.v 1) (.v 2) (.v 3) (.v 4)),
    (wordOf 0x410 0 1 2 3 0 0 0, .and hd .i32 (.v 1) (.v 2) (.v 3)),
    (wordOf 0x411 0 1 2 3 0 0 0, .or hd .i32 (.v 1) (.v 2) (.v 3)),
    (wordOf 0x412 0 1 2 3 0 0 0, .xor hd .i32 (.v 1) (.v 2) (.v 3)),
    (wordOf 0x413 0 1 2 3 0 0 0, .andn hd .i32 (.v 1) (.v 2) (.v 3)),
    (wordOf 0x414 0 1 2 0 0 0 0, .not hd .i32 (.v 1) (.v 2)),
    (wordOf 0x420 0 1 2 3 0 0x040 0, .bfx hd .n32 (.v 1) (.v 2) (.v 3)),
    (wordOf 0x421 0 1 2 3 4 0 0, .bfi hd .i32 (.v 1) (.v 2) (.v 3) (.v 4)),
    (wordOf 0x422 0 1 2 0 0 0 0, .clz hd .i32 (.v 1) (.v 2)),
    (wordOf 0x423 0 1 2 0 0 0 0, .ctz hd .i32 (.v 1) (.v 2)),
    (wordOf 0x424 0 1 2 0 0 0 0, .popc hd .i32 (.v 1) (.v 2)),
    (wordOf 0x425 0 1 2 0 0 0 0, .brev hd .i32 (.v 1) (.v 2)),
    (wordOf 0x426 0 1 2 3 0 0 0, .bilv hd .i32 (.v 1) (.v 2) (.v 3)),
    (wordOf 0x427 0 1 2 0 0 0 0, .bdil hd .i32 (.v 1) (.v 2)),
    (wordOf 0x428 0 1 2 3 4 0 0, .prmt hd .i32 (.v 1) (.v 2) (.v 3) (.v 4))] = true := by decide +kernel

theorem test_decode_float : reads [
    (wordOf 0x500 0 1 2 3 0 0x101 0, .fadd hd .f32 ⟨true, false, false, false, false, false⟩ (.v 1) (.v 2) (.v 3)),
    (wordOf 0x501 0 1 2 3 0 0x102 0, .fsub hd .f32 ⟨false, true, false, false, false, false⟩ (.v 1) (.v 2) (.v 3)),
    (wordOf 0x502 0 1 2 3 0 0x108 0, .fmul hd .f32 ⟨false, false, false, true, false, false⟩ (.v 1) (.v 2) (.v 3)),
    (wordOf 0x503 0 1 2 3 4 0x104 0, .ffma hd .f32 ⟨false, false, true, false, false, false⟩ (.v 1) (.v 2) (.v 3) (.v 4)),
    (wordOf 0x504 0 1 2 3 0 0x110 0, .fmin hd .f32 ⟨false, false, false, false, true, false⟩ (.v 1) (.v 2) (.v 3)),
    (wordOf 0x505 0 1 2 3 0 0x120 0, .fmax hd .f32 ⟨false, false, false, false, false, true⟩ (.v 1) (.v 2) (.v 3)),
    (wordOf 0x506 0 0x0E0 2 3 0 0x10A 0, .fcmp hd .f32 true .lt (.f 0) (.v 2) (.v 3)),
    (wordOf 0x507 0 1 2 0 0 0x103 0, .frint hd .f32 .rtz (.v 1) (.v 2)),
    (wordOf 0x600 0 1 2 3 0 0x160 0, .hadd2 hd .h2 ⟨false, false, false, false, false, true⟩ (.v 1) (.v 2) (.v 3)),
    (wordOf 0x601 0 1 2 3 0 0x180 0, .hmul2 hd .b2 fm (.v 1) (.v 2) (.v 3)),
    (wordOf 0x602 0 1 2 3 4 0x184 0, .hfma2 hd .b2 ⟨false, false, true, false, false, false⟩ (.v 1) (.v 2) (.v 3) (.v 4)),
    (wordOf 0x603 0 1 2 3 0 0x141 0, .hmin2 hd .h2 ⟨true, false, false, false, false, false⟩ (.v 1) (.v 2) (.v 3)),
    (wordOf 0x604 0 1 2 3 0 0x142 0, .hmax2 hd .h2 ⟨false, true, false, false, false, false⟩ (.v 1) (.v 2) (.v 3))] = true := by
  decide +kernel

theorem test_decode_conversion : reads [
    (wordOf 0x700 0 1 2 0 0 0x100 0, .frcp hd .f32 (.v 1) (.v 2)),
    (wordOf 0x701 0 1 2 0 0 0x100 0, .frsq hd .f32 (.v 1) (.v 2)),
    (wordOf 0x702 0 1 2 0 0 0x100 0, .fsqrt hd .f32 (.v 1) (.v 2)),
    (wordOf 0x703 0 1 2 0 0 0x100 0, .fex2 hd .f32 (.v 1) (.v 2)),
    (wordOf 0x704 0 1 2 0 0 0x100 0, .flg2 hd .f32 (.v 1) (.v 2)),
    (wordOf 0x705 0 1 2 0 0 0x100 0, .fsin hd .f32 (.v 1) (.v 2)),
    (wordOf 0x706 0 1 2 0 0 0x100 0, .fcos hd .f32 (.v 1) (.v 2)),
    (wordOf 0x710 0 1 2 0 0 0x115 0, .cvt hd .f32 .h2 true (.v 1) (.v 2)),
    (wordOf 0x711 0 3 1 2 3 0x341 0, .pack8 hd .f8a true (.v 3) (.v 1) (.v 2) (.v 3)),
    (wordOf 0x712 0 4 3 0 0 0x382 0, .unpk8 hd .f8b 2 (.v 4) (.v 3)),
    (wordOf 0x713 0 1 2 3 0 0x180 0, .packd hd .b2 (.v 1) (.v 2) (.v 3))] = true := by decide +kernel

theorem test_decode_lane : reads [
    (wordOf 0x800 0 2 4 3 0 0x2C3 0, .shfl hd .b64 .xor (.v 2) (.v 4) (.v 3)),
    (wordOf 0x801 0 1 0x0E4 0 0 0x002 0, .vote hd .i32 .ballot (.v 1) (.nf 0)),
    (wordOf 0x802 0 1 2 0 0 0x040 0, .matchI hd .n32 (.v 1) (.v 2)),
    (wordOf 0x803 0 0x085 2 0 0 0x045 0, .redw hd .n32 .xor (.k 5) (.v 2)),
    (wordOf 0x804 0 1 2 0 0 0x10A 0, .scanw hd .f32 .max true (.v 1) (.v 2)),
    (wordOf 0x805 0 1 2 0 0 0x100 0, .ddx hd .f32 (.v 1) (.v 2)),
    (wordOf 0x806 0 1 2 0 0 0x100 0, .ddy hd .f32 (.v 1) (.v 2)),
    (wordOf 0x807 0 1 2 0 0 0x10C 0, .quad hd .f32 .bcast 3 (.v 1) (.v 2)),
    (wordOf 0x808 0 0x085 2 0x206 0 0x000 0, .rdlane hd .i32 (.k 5) (.v 2) (.const 6))] = true := by decide +kernel

theorem test_decode_memory : reads [
    (wordOf 0x900 0 4 8 0x082 0xFFFFFFF0 0x313 0, .ld hd ⟨.b128, .acq, false, .device⟩ (.v 4) (.v 8) (.k 2) 0xFFFFFFF0),
    (wordOf 0x901 0 4 8 0x0D0 0 0x248 0, .st hd ⟨.i16, .plain, true, .wave⟩ (.v 4) (.v 8) .zero 0),
    (wordOf 0x902 0 4 8 0 0xF0000010 0x200 0, .ldp hd .n8 15 0x10 (.v 4) (.v 8)),
    (wordOf 0x910 0 0x23F 8 9 4 0 0, .discard hd (.const 63) (.v 8) (.v 9) 4),
    (wordOf 0x911 0 0 8 9 4 0x040 0, .pref hd true (.v 8) (.v 9) 4)] = true := by decide +kernel

theorem test_decode_atomic : reads [
    (wordOf 0xA00 0 1 2 3 0xFFC00004 0x033 0, .atomAdd hd ⟨.i32, .ar, false, .device⟩ (.v 1) (.v 2) (.v 3) 0xFFC (.v 4)),
    (wordOf 0xA01 0 1 2 3 4 0 0, .atomMin hd ⟨.i32, .plain, false, .wave⟩ (.v 1) (.v 2) (.v 3) 0 (.v 4)),
    (wordOf 0xA02 0 1 2 3 4 0x040 0, .atomMax hd ⟨.n32, .plain, false, .wave⟩ (.v 1) (.v 2) (.v 3) 0 (.v 4)),
    (wordOf 0xA03 0 1 2 3 4 0 0, .atomAnd hd ⟨.i32, .plain, false, .wave⟩ (.v 1) (.v 2) (.v 3) 0 (.v 4)),
    (wordOf 0xA04 0 1 2 3 4 0 0, .atomOr hd ⟨.i32, .plain, false, .wave⟩ (.v 1) (.v 2) (.v 3) 0 (.v 4)),
    (wordOf 0xA05 0 1 2 3 4 0 0, .atomXor hd ⟨.i32, .plain, false, .wave⟩ (.v 1) (.v 2) (.v 3) 0 (.v 4)),
    (wordOf 0xA06 0 2 2 3 4 0x2C0 0, .atomExch hd ⟨.b64, .plain, false, .wave⟩ (.v 2) (.v 2) (.v 3) 0 (.v 4)),
    (wordOf 0xA07 0 1 2 0x0D0 0x00101404 0x008 0, .atomCas hd ⟨.i32, .plain, true, .wave⟩ (.v 1) (.v 2) .zero 1 (.v 5) (.v 4)),
    (wordOf 0xA08 0 1 2 3 4 0x100 0, .atomFaddF32 hd ⟨.f32, .plain, false, .wave⟩ (.v 1) (.v 2) (.v 3) 0 (.v 4)),
    (wordOf 0xA09 0 0x0D0 2 3 4 0x180 0, .atomFaddB2 hd ⟨.b2, .plain, false, .wave⟩ .zero (.v 2) (.v 3) 0 (.v 4)),
    (wordOf 0xA10 0 0 2 3 4 0x024 0, .redAdd hd ⟨.i32, .rel, false, .system⟩ (.v 2) (.v 3) 0 (.v 4)),
    (wordOf 0xA11 0 0 2 3 4 0 0, .redMin hd ⟨.i32, .plain, false, .wave⟩ (.v 2) (.v 3) 0 (.v 4)),
    (wordOf 0xA12 0 0 2 3 4 0 0, .redMax hd ⟨.i32, .plain, false, .wave⟩ (.v 2) (.v 3) 0 (.v 4)),
    (wordOf 0xA13 0 0 2 3 4 0 0, .redAnd hd ⟨.i32, .plain, false, .wave⟩ (.v 2) (.v 3) 0 (.v 4)),
    (wordOf 0xA14 0 0 2 3 4 0 0, .redOr hd ⟨.i32, .plain, false, .wave⟩ (.v 2) (.v 3) 0 (.v 4)),
    (wordOf 0xA15 0 0 2 3 4 0 0, .redXor hd ⟨.i32, .plain, false, .wave⟩ (.v 2) (.v 3) 0 (.v 4)),
    (wordOf 0xA18 0 0 2 3 4 0x100 0, .redFaddF32 hd ⟨.f32, .plain, false, .wave⟩ (.v 2) (.v 3) 0 (.v 4)),
    (wordOf 0xA19 0 0 2 3 4 0x180 0, .redFaddB2 hd ⟨.b2, .plain, false, .wave⟩ (.v 2) (.v 3) 0 (.v 4)),
    (wordOf 0xA20 0 0 0 0 0 0x034 0, .fence hd ⟨.i32, .ar, false, .system⟩),
    (wordOf 0xA21 0 0 0 0 0 0 0, .fenceo hd),
    (wordOf 0xA22 0 0 0 0 0 2 0, .fencer hd ⟨.i32, .plain, false, .cluster⟩)] = true := by decide +kernel

theorem test_decode_copies : reads [
    (wordOf 0xB00 0 0x086 0x088 0x08A 0x3F 0x010 0, .copy hd true false (.k 6) (.k 8) (.k 10) 63),
    (wordOf 0xB01 0 0x086 0x088 0x08A 0x3FC5 0 0, .copym hd (.k 6) (.k 8) (.k 10) 5 15 15),
    (wordOf 0xB02 0 0x086 0x088 0x08A 0x0010FFC1 0x008 0, .gather hd true (.k 6) (.k 8) (.k 10) 1 0x3FF 4),
    (wordOf 0xB03 0 0x086 0x088 0x08A 0x0FC2 0x1E4 0, .coll hd .i8 .bcast false true (.k 6) (.k 8) (.k 10) 2 63),
    (wordOf 0xB10 0 0x0E1 0 0x081 8 0x030 0, .qenq hd 3 (.f 1) (.k 1) (.v 8)),
    (wordOf 0xB11 0 3 0 0x202 6 0x000 0, .qdeq hd 0 (.v 3) (.const 2) (.v 6)),
    (wordOf 0xB12 0 0x083 0 0x0D0 0 0 0, .qstat hd (.k 3) .zero),
    (wordOf 0xB20 0 3 0x082 4 0 0 0, .spawn hd (.v 3) (.k 2) (.v 4))] = true := by decide +kernel

theorem test_decode_graphics : reads [
    (wordOf 0xC00 0 4 6 0 0 8 0, .osclook hd true (.v 4) (.v 6)),
    (wordOf 0xC01 0 4 6 0x081 0 0 0, .oscwait hd (.v 4) (.v 6) (.k 1)),
    (wordOf 0xC02 0 0x0E1 6 0 0 0 0, .oscfill hd (.f 1) (.v 6)),
    (wordOf 0xC03 0 0 0x205 0 0 0 0, .oscinv hd (.const 5)),
    (wordOf 0xC04 0 0 0 0 0 0 0, .osctick hd),
    (wordOf 0xC05 0 5 6 0 0 0 0, .oscprov hd (.v 5) (.v 6)),
    (wordOf 0xC10 0 4 0x082 8 12 8 0, .tex hd true (.v 4) (.k 2) (.v 8) (.v 12)),
    (wordOf 0xC11 0 4 0x082 0x203 0 0 0, .texqSize hd (.v 4) (.k 2) (.const 3)),
    (wordOf 0xC11 0 4 0x082 8 12 0x010 0, .texqLod hd false (.v 4) (.k 2) (.v 8) (.v 12)),
    (wordOf 0xC20 0 0 0x082 0 9 0 0, .trace hd (.k 2) 9),
    (wordOf 0xC21 0 0 0x082 0 9 0 0, .matev hd (.k 2) 9),
    (wordOf 0xC30 0 0 8 5 0x081 0 0, .vemit hd (.v 8) (.v 5) (.k 1))] = true := by decide +kernel

theorem test_decode_tensor : reads [
    (wordOf 0xD00 0 0x27F 0x0B8 0 0 0 0, .tdef hd (.t 63) (.k 56)),
    (wordOf 0xD01 0 0x088 0x240 0 0 0 0, .tqry hd (.k 8) (.t 0)),
    (wordOf 0xD10 0 0x240 0x241 0x242 3 8 0, .tmma hd true (.t 0) (.t 1) (.t 2) 3),
    (wordOf 0xD11 0 0x240 0x241 0x242 3 0 0, .tmmd hd false (.t 0) (.t 1) (.t 2) 3),
    (wordOf 0xD12 0 0x240 0x241 6 0x90C3 0 0, .tvmm hd (.t 0) (.t 1) (.v 6) 3 (.t 3)),
    (wordOf 0xD13 0 0x240 0x241 0x242 3 0 0, .tmms hd (.t 0) (.t 1) (.t 2) 3),
    (wordOf 0xD20 0 0x240 0 0 0 0 0, .tzero hd (.t 0)),
    (wordOf 0xD21 0 0x240 0x241 0 3 0 0, .taccld hd (.t 0) (.t 1) 3),
    (wordOf 0xD22 0 0x240 0x241 0x0D0 0x8843 0x020 0, .taccst hd .clamp1 (.t 0) (.t 1) .zero 3 (.const 33)),
    (wordOf 0xE00 0 0x240 0x241 0 3 0 0, .tfft hd (.t 0) (.t 1) 3),
    (wordOf 0xE01 0 0x240 0x241 0 3 0 0, .tift hd (.t 0) (.t 1) 3),
    (wordOf 0xE10 0 0x240 0x241 0 3 8 0, .xfm hd true (.t 0) (.t 1) 3),
    (wordOf 0xE11 0 0x240 0x241 0 3 0x008 0, .xchain hd .relu (.t 0) (.t 1) 3),
    (wordOf 0xE20 0 0 0x082 0 0x3C3 0 0, .tabld hd (.k 2) 3 15)] = true := by decide +kernel

/-! ## Ill-formed instructions

The entries' words at the edge of what they accept: one refused term for each check of `WellFormed`, and the fate of its word (R222). -/

/-- A term that `encodable` refuses. -/
def badEnc (l : List Instr) : Bool := l.all fun i => !i.encodable && !i.wellFormed
/-- A term that only `operandsOk` refuses, and whose word meets ILLEGAL_OPERAND. -/
def badOpd (l : List Instr) : Bool :=
  l.all fun i => i.encodable && !i.operandsOk && decide (decode (encode i) = .illegalOperand)

/-- A plain access of a type. -/
def mm (ty : Ty) : MemMod := ⟨ty, .plain, false, .wave⟩
/-- A header with a guard. -/
def gd : Hdr := ⟨.ifTrue 0, ⟨false, 0, false, false⟩⟩

/-- Guards where R196 forbids one, numbers and modifiers of groups 0x0-0x2. -/
theorem test_illformed_control : badEnc [
    .bra gd 0, .brc gd (.f 0) 0, .jmask gd (.j 0), .join gd (.j 0), .ifI gd (.f 0) 0, .elseI gd 0, .endifI gd, .loop gd,
    .endloop gd 0, .breakI gd (.f 0) 2, .breakI hd (.f 0) 1, .cont gd (.f 0) 2, .cont hd (.f 0) 0, .srd hd 0x04 (.v 0),
    .swr hd 0x1B (.k 0), .icinv hd .system, .barArrive hd .cb 8, .barSync hd .gb 4, .barWait hd .gb 4 .zero,
    .barph hd .cb 8 (.f 0)] = true := by decide +kernel

/-- Types and modifiers that the entries of groups 0x3-0x8 do not define. -/
theorem test_illformed_arith : badEnc [
    .iadd hd .f32 false (.v 1) (.v 2) (.v 3), .isub hd .i8 false (.v 1) (.v 2) (.v 3),
    .imad hd .b64 false (.v 1) (.v 2) (.v 3) (.v 4), .imul hd .f32 (.v 1) (.v 2) (.v 3), .imin hd .h2 (.v 1) (.v 2) (.v 3),
    .imax hd .f32 (.v 1) (.v 2) (.v 3), .iaddc hd .i16x2 false (.v 1) (.v 2) (.v 3) (.f 0),
    .imulh hd .i16x2 (.v 1) (.v 2) (.v 3), .imad64 hd .b64 (.v 2) (.v 2) (.v 3) (.v 4), .iadd64 hd .i32 (.v 2) (.v 2) (.v 4),
    .iabs hd .n32 false (.v 1) (.v 2), .icmp hd .f32 .lt (.f 0) (.v 2) (.v 3), .icmp hd .i32 .nan (.f 0) (.v 2) (.v 3),
    .icmp hd .i32 .num (.f 0) (.v 2) (.v 3), .isel hd .b64 (.v 1) (.v 2) (.v 3) (.f 0),
    .idot4 hd .i32 false (.v 1) (.v 2) (.v 3) (.v 4), .mov hd .i8 (.v 1) (.v 2), .movi hd .b128 (.v 4) 0,
    .shl hd .f32 (.v 1) (.v 2) (.v 3), .shr hd .f32 (.v 1) (.v 2) (.v 3), .sar hd .f32 (.v 1) (.v 2) (.v 3),
    .rotl hd .f32 (.v 1) (.v 2) (.v 3), .and hd .f32 (.v 1) (.v 2) (.v 3), .or hd .f32 (.v 1) (.v 2) (.v 3),
    .xor hd .f32 (.v 1) (.v 2) (.v 3), .andn hd .b64 (.v 1) (.v 2) (.v 3), .bfx hd .f32 (.v 1) (.v 2) (.v 3),
    .bilv hd .f32 (.v 1) (.v 2) (.v 3), .fshl hd .f32 (.v 1) (.v 2) (.v 3) (.v 4), .fshr hd .f32 (.v 1) (.v 2) (.v 3) (.v 4),
    .bfi hd .f32 (.v 1) (.v 2) (.v 3) (.v 4), .prmt hd .f32 (.v 1) (.v 2) (.v 3) (.v 4), .not hd .f32 (.v 1) (.v 2),
    .clz hd .f32 (.v 1) (.v 2), .ctz hd .f32 (.v 1) (.v 2), .popc hd .f32 (.v 1) (.v 2), .brev hd .f32 (.v 1) (.v 2),
    .bdil hd .f32 (.v 1) (.v 2), .fadd hd .i32 fm (.v 1) (.v 2) (.v 3),
    .fadd hd .f32 ⟨false, false, true, false, false, false⟩ (.v 1) (.v 2) (.v 3), .fsub hd .h2 fm (.v 1) (.v 2) (.v 3),
    .fmul hd .h2 fm (.v 1) (.v 2) (.v 3), .fmin hd .i32 fm (.v 1) (.v 2) (.v 3), .fmax hd .i32 fm (.v 1) (.v 2) (.v 3),
    .ffma hd .b2 fm (.v 1) (.v 2) (.v 3) (.v 4), .fcmp hd .i32 false .lt (.f 0) (.v 2) (.v 3),
    .fcmp hd .f32 true .num (.f 0) (.v 2) (.v 3), .fcmp hd .f32 true .nan (.f 0) (.v 2) (.v 3), .frint hd .i32 .rne (.v 1) (.v 2),
    .hadd2 hd .f32 fm (.v 1) (.v 2) (.v 3), .hadd2 hd .h2 ⟨false, false, false, true, false, false⟩ (.v 1) (.v 2) (.v 3),
    .hmul2 hd .h2 ⟨false, false, true, false, false, false⟩ (.v 1) (.v 2) (.v 3), .hmin2 hd .f32 fm (.v 1) (.v 2) (.v 3),
    .hmax2 hd .f32 fm (.v 1) (.v 2) (.v 3), .hfma2 hd .h2 ⟨false, false, false, false, true, false⟩ (.v 1) (.v 2) (.v 3) (.v 4),
    .frcp hd .h2 (.v 1) (.v 2), .frsq hd .h2 (.v 1) (.v 2), .fsqrt hd .h2 (.v 1) (.v 2), .fex2 hd .h2 (.v 1) (.v 2),
    .flg2 hd .h2 (.v 1) (.v 2), .fsin hd .h2 (.v 1) (.v 2), .fcos hd .h2 (.v 1) (.v 2), .cvt hd .h2 .f32 false (.v 1) (.v 2),
    .cvt hd .f32 .b64 false (.v 1) (.v 2), .cvt hd .f32 .i32 true (.v 1) (.v 2), .pack8 hd .f32 false (.v 1) (.v 2) (.v 3) (.v 4),
    .unpk8 hd .i32 0 (.v 1) (.v 2), .packd hd .f32 (.v 1) (.v 2) (.v 3), .shfl hd .h2 .idx (.v 1) (.v 2) (.v 3),
    .rdlane hd .i8 (.v 1) (.v 2) .zero, .matchI hd .b128 (.v 1) (.v 4), .vote hd .n32 .all (.v 1) (.f 0),
    .redw hd .f32 .and (.v 1) (.v 2), .redw hd .h2 .add (.v 1) (.v 2), .scanw hd .f32 .xor false (.v 1) (.v 2),
    .ddx hd .i32 (.v 1) (.v 2), .ddy hd .i32 (.v 1) (.v 2), .quad hd .b64 .swapx 0 (.v 1) (.v 2),
    .quad hd .i32 .swapy 1 (.v 1) (.v 2)] = true := by decide +kernel

/-- Types, orders and scopes that the entries of groups 0x9-0xB do not define. -/
theorem test_illformed_memory : badEnc [
    .ld hd (mm .h2) (.v 1) (.v 2) (.v 3) 0, .ld hd ⟨.i32, .rel, false, .block⟩ (.v 1) (.v 2) (.v 3) 0,
    .ld hd ⟨.i32, .plain, false, .block⟩ (.v 1) (.v 2) (.v 3) 0, .ld hd ⟨.i32, .acq, true, .block⟩ (.v 1) (.v 2) .zero 0,
    .st hd (mm .b2) (.v 1) (.v 2) (.v 3) 0, .st hd ⟨.i32, .acq, false, .block⟩ (.v 1) (.v 2) (.v 3) 0, .ldp hd .h2 0 0 (.v 1) (.v 2),
    .atomAdd hd (mm .f32) (.v 1) (.v 2) (.v 3) 0 (.v 4), .atomAnd hd (mm .i8) (.v 1) (.v 2) (.v 3) 0 (.v 4),
    .atomOr hd (mm .f32) (.v 1) (.v 2) (.v 3) 0 (.v 4), .atomXor hd (mm .f32) (.v 1) (.v 2) (.v 3) 0 (.v 4),
    .atomMin hd (mm .b64) (.v 2) (.v 2) (.v 3) 0 (.v 4), .atomMax hd (mm .b64) (.v 2) (.v 2) (.v 3) 0 (.v 4),
    .atomExch hd (mm .b128) (.v 4) (.v 2) (.v 3) 0 (.v 4), .atomCas hd (mm .h2) (.v 4) (.v 2) (.v 3) 0 (.v 4) (.v 4),
    .atomFaddF32 hd (mm .i32) (.v 1) (.v 2) (.v 3) 0 (.v 4), .atomFaddB2 hd (mm .h2) (.v 1) (.v 2) (.v 3) 0 (.v 4),
    .redAdd hd ⟨.i32, .acq, false, .block⟩ (.v 2) (.v 3) 0 (.v 4), .redAnd hd (mm .f32) (.v 2) (.v 3) 0 (.v 4),
    .redOr hd (mm .f32) (.v 2) (.v 3) 0 (.v 4), .redXor hd ⟨.i32, .ar, false, .block⟩ (.v 2) (.v 3) 0 (.v 4),
    .redMin hd (mm .b64) (.v 2) (.v 3) 0 (.v 4), .redMax hd (mm .b64) (.v 2) (.v 3) 0 (.v 4),
    .redFaddF32 hd (mm .b2) (.v 2) (.v 3) 0 (.v 4), .redFaddB2 hd (mm .f32) (.v 2) (.v 3) 0 (.v 4), .fence hd (mm .i32),
    .fence hd ⟨.n32, .acq, false, .block⟩, .fence hd ⟨.i32, .acq, true, .block⟩, .fencer hd (mm .i32),
    .fencer hd ⟨.i32, .plain, false, .system⟩, .copym hd (.k 0) (.k 2) (.k 4) 0 0 0,
    .coll hd .b64 .allsum false false (.k 0) (.k 2) (.k 4) 0 0] = true := by decide +kernel

/-- Operand spaces of groups 0x0-0x2. -/
theorem test_badoperand_control : badOpd [
    .srd hd 0x00 (.v 1), .swr hd 0x00 (.k 0), .swr hd 0x08 (.k 1), .lnch hd (.f 0) (.k 0), .lnch hd (.v 0) (.v 0),
    .brc hd (.const 2) 0, .ifI hd (.v 0) 0, .breakI hd .zero 2, .cont hd (.j 0) 2, .jmask hd (.v 0), .join hd (.v 0),
    .calli hd 0 (.l 0) (.v 1), .calli hd 0 (.v 1) (.const 0), .twait hd false (.v 0), .tfirst hd (.f 0) (.k 0),
    .tfirst hd (.v 0) (.k 1), .barWait hd .bb 0 (.v 0), .barph hd .bb 0 (.x 0)] = true := by decide +kernel

/-- Operand spaces of groups 0x3-0x8. -/
theorem test_badoperand_arith : badOpd [
    .iadd hd .i32 false (.l 0) (.v 2) (.v 3), .isub hd .i32 false (.k 0) (.v 2) (.k 3), .imul hd .i32 (.v 0) (.f 0) (.v 1),
    .imulh hd .i32 .zero (.v 1) (.v 1), .imin hd .i32 .laneid (.v 1) (.v 1), .imax hd .i32 (.x 0) (.v 1) (.v 1),
    .imad hd .i32 false (.v 0) (.v 1) (.v 1) (.t 0), .iaddc hd .i32 false (.v 0) (.v 1) (.v 1) (.nf 0),
    .iaddc hd .i32 false (.k 0) (.k 1) (.k 1) (.f 0), .iadd64 hd .b64 (.v 1) (.v 2) (.v 2), .iadd64 hd .b64 (.v 2) (.o 2) (.v 2),
    .imad64 hd .i32 (.v 2) (.v 1) (.v 1) (.v 3), .iabs hd .i32 false (.k 0) (.v 0), .icmp hd .i32 .lt (.nf 0) (.v 1) (.v 1),
    .fcmp hd .f32 false .lt (.k 0) (.o 1) (.k 1), .isel hd .i32 (.k 0) (.k 1) (.k 1) (.f 0), .isel hd .i32 (.v 0) (.v 1) (.v 1) (.v 2),
    .idot4 hd .i8 false (.const 0) (.v 1) (.v 1) (.v 1), .mov hd .i32 (.j 0) (.v 0), .mov hd .i32 (.k 0) (.f 0),
    .mov hd .b64 (.v 2) (.x 0), .mov hd .b64 (.v 1) (.v 2), .mov hd .b128 (.v 2) (.v 4), .mov hd .b128 (.v 4) (.const 0),
    .movi hd .i32 (.f 0) 0, .movi hd .b64 (.v 1) 0, .shl hd .i32 (.l 1) (.v 1) (.v 1), .fshl hd .i32 (.v 0) (.v 1) (.v 1) (.f 1),
    .not hd .i32 (.v 0) (.nf 1), .fadd hd .f32 fm (.k 1) (.laneid) (.k 1), .ffma hd .f32 fm (.v 0) (.v 1) (.v 1) (.j 1),
    .frint hd .f32 .rne (.f 0) (.v 1), .hadd2 hd .h2 fm (.v 0) (.t 1) (.v 1), .hfma2 hd .h2 fm (.k 0) (.k 1) (.k 1) (.v 1),
    .frcp hd .f32 (.v 0) (.j 0), .cvt hd .i32 .f32 false (.x 0) (.v 0), .pack8 hd .i8 false (.v 0) (.v 1) (.v 1) (.f 0),
    .unpk8 hd .i8 0 (.f 0) (.v 0), .packd hd .h2 (.f 0) (.v 0) (.v 0), .shfl hd .i32 .idx (.k 0) (.v 1) (.v 1),
    .shfl hd .b64 .idx (.v 0) (.k 0) (.v 1), .rdlane hd .i32 (.v 0) (.v 1) (.v 1), .vote hd .i32 .ballot (.f 0) (.f 0),
    .vote hd .i32 .all (.v 0) (.v 0), .matchI hd .i32 (.k 0) (.v 0), .matchI hd .b64 (.v 0) (.v 1), .redw hd .i32 .add (.f 0) (.v 0),
    .scanw hd .i32 .add false (.k 0) (.v 0), .ddx hd .f32 (.k 0) (.v 0), .ddy hd .f32 (.k 0) (.v 0),
    .quad hd .i32 .swapx 0 (.k 0) (.v 0)] = true := by decide +kernel

/-- Operand spaces of groups 0x9-0xC. -/
theorem test_badoperand_memory : badOpd [
    .ld hd (mm .i32) (.v 0) (.o 0) (.v 1) 0, .ld hd (mm .i32) (.k 0) (.v 0) (.k 1) 0, .ld hd (mm .b64) (.v 1) (.v 2) (.v 3) 0,
    .ld hd (mm .b128) (.v 2) (.v 2) (.v 3) 0, .ld hd ⟨.i32, .plain, true, .wave⟩ (.v 0) (.v 0) (.v 1) 0,
    .st hd (mm .i32) (.f 0) (.v 2) (.v 3) 0, .st hd (mm .b64) (.v 1) (.v 2) (.v 3) 0, .st hd (mm .b128) (.const 0) (.v 2) (.v 3) 0,
    .ldp hd .i32 0 0 (.k 0) (.v 0), .ldp hd .i32 0 0 (.v 0) (.f 0), .discard hd (.l 0) (.v 0) (.v 1) 0,
    .discard hd (.v 0) (.x 0) (.v 1) 0, .pref hd false (.o 0) (.v 1) 0, .atomAdd hd (mm .i32) (.k 0) (.v 2) (.v 3) 0 (.v 4),
    .atomMin hd (mm .i32) (.v 0) (.v 2) (.v 3) 0 (.f 4), .atomExch hd (mm .b64) (.v 1) (.v 2) (.v 3) 0 (.v 4),
    .atomCas hd (mm .b64) (.v 0) (.v 2) (.v 3) 0 (.v 5) (.v 4), .redAdd hd (mm .b64) (.v 2) (.v 3) 0 (.o 4),
    .redMin hd (mm .i32) (.v 2) (.l 3) 0 (.v 4), .copy hd false false (.k 1) (.k 2) (.k 4) 0, .copy hd true true (.k 1) (.v 2) (.k 4) 0,
    .copym hd (.v 0) (.k 2) (.k 4) 0 1 0, .copym hd (.k 0) (.k 3) (.k 4) 0 1 0, .gather hd false (.k 0) (.k 2) (.k 5) 0 0 0,
    .coll hd .i32 .allsum false false (.k 1) (.k 2) (.k 4) 0 0, .coll hd .i32 .allsum false false (.k 0) (.k 2) (.v 4) 0 0,
    .qenq hd 0 (.k 0) (.k 1) (.v 2), .qenq hd 1 (.v 0) (.k 1) (.v 2), .qdeq hd 0 (.v 0) (.v 1) (.v 2), .qstat hd (.f 0) (.k 0),
    .spawn hd (.k 0) (.k 2) (.v 4), .spawn hd (.v 0) (.k 1) (.v 4), .spawn hd (.v 0) (.k 2) (.v 6),
    .osclook hd false (.v 2) (.v 0), .osclook hd false (.v 4) (.o 0), .oscwait hd (.v 4) (.f 0) .zero, .oscwait hd (.v 4) (.v 0) (.v 1),
    .oscfill hd (.k 0) (.v 0), .oscinv hd (.v 0), .oscprov hd (.k 0) (.v 0), .tex hd false (.v 2) (.k 0) (.v 4) (.v 8),
    .texqLod hd false (.v 4) (.k 1) (.v 4) (.v 8), .texqSize hd (.v 4) (.k 0) (.l 0), .trace hd (.k 1) 0, .matev hd (.v 0) 0,
    .vemit hd (.v 2) (.v 0) .zero, .vemit hd (.v 4) (.v 0) (.v 1)] = true := by decide +kernel

/-- Operand spaces of groups 0xD and 0xE. -/
theorem test_badoperand_tensor : badOpd [
    .tdef hd (.v 0) (.k 8), .tdef hd (.t 0) (.k 4), .tqry hd (.k 4) (.t 0), .tmma hd false (.t 0) (.k 1) (.t 2) 0,
    .tmmd hd false (.v 0) (.t 1) (.t 2) 0, .tvmm hd (.t 0) (.t 1) (.v 3) 0 (.t 3), .tvmm hd (.t 0) (.t 1) (.v 2) 0 (.v 3),
    .tmms hd (.t 0) (.t 1) .zero 0, .tzero hd (.v 0), .taccld hd (.t 0) (.v 1) 0, .taccst hd .none (.t 0) (.t 1) (.k 0) 0 (.k 0),
    .taccst hd .none (.t 0) (.t 1) .zero 0 .zero, .tfft hd (.t 0) (.v 1) 0, .tift hd (.v 0) (.t 1) 0, .xfm hd false (.t 0) .zero 0,
    .xchain hd .relu (.k 0) (.t 1) 0, .tabld hd (.k 1) 0 0] = true := by decide +kernel

/-- Words that name no instruction: an unassigned code, a reserved bit, guard 9, a reserved operand code, reserved fields (R222). -/
theorem test_decode_refuses :
    decode (wordOf 0xA16 0 0 2 3 4 0 0) = .illegalInstruction ∧ decode (wordOf 0xF00 0 0 0 0 0 0 0) = .illegalInstruction ∧
    decode (wordOf 0x001 0 0 0 0 0 0 1) = .illegalEncoding ∧ decode (wordOf 0x001 9 0 0 0 0 0 0) = .illegalEncoding ∧
    decode (wordOf 0x300 0 1 0x0F4 3 0 0 0) = .illegalEncoding ∧ decode (wordOf 0x300 0 1 2 3 1 0 0) = .illegalEncoding ∧
    decode (wordOf 0x210 0 0 0 0 0x30 0 0) = .illegalEncoding ∧ decode (wordOf 0x210 0 0 0 0 0 0x30 0) = .illegalEncoding ∧
    decode (wordOf 0x210 0 0 0x0D0 0 0 0x20 0) = .illegalEncoding := by decide +kernel

/-! ## Single steps

Expected values come from the manual's worked examples, or are worked out by hand from the rule named. -/

/-- The base state with lane 7 alone in its slot, and words in V registers, given as (register, lane, value). -/
def stV (vs : List (Nat × Nat × Word)) : State :=
  stW fun w => (vs.foldl (fun w x => w.setReg (w.vKey x.1 x.2.1) x.2.2) w).setPath false { w.slotA.path with mask := 0x80 }

/-- V5 of lane 7, 0 where the step does not go on. -/
def out5 (o : Out) : Word :=
  match o with
  | .next t => (t.wave 0).read (.v 5) 7
  | _ => 0

/-- V5 of lane 7 after an instruction whose sources V1, V2 and V3 hold the given words there. -/
def result (i : Instr) (a b c : Word) : Word := out5 (exec i (stV [(1, 7, a), (2, 7, b), (3, 7, c)]))

/-- R251: wrapping, `.sat`, halves, the high product, the most negative absolute value; R256. -/
theorem test_step_integer :
    result (.iadd hd .i32 false (.v 5) (.v 1) (.v 2)) 0x7FFFFFFF 1 0 = 0x80000000 ∧
    result (.iadd hd .i32 true (.v 5) (.v 1) (.v 2)) 0x7FFFFFFF 1 0 = 0x7FFFFFFF ∧
    result (.isub hd .n16x2 true (.v 5) (.v 1) (.v 2)) 0x00050001 0x00030002 0 = 0x00020000 ∧
    result (.imul hd .i32 (.v 5) (.v 1) (.v 2)) 0xFFFFFFFF 5 0 = 0xFFFFFFFB ∧
    result (.imulh hd .i32 (.v 5) (.v 1) (.v 2)) 0xFFFFFFFF 5 0 = 0xFFFFFFFF ∧
    result (.imulh hd .n32 (.v 5) (.v 1) (.v 2)) 0xFFFFFFFF 5 0 = 4 ∧
    result (.imad hd .i32 false (.v 5) (.v 1) (.v 2) (.v 3)) 3 5 7 = 22 ∧
    result (.imin hd .i32 (.v 5) (.v 1) (.v 2)) 0xFFFFFFFF 5 0 = 0xFFFFFFFF ∧
    result (.imax hd .n32 (.v 5) (.v 1) (.v 2)) 0xFFFFFFFF 5 0 = 0xFFFFFFFF ∧
    result (.iabs hd .i32 true (.v 5) (.v 1)) 0x80000000 0 0 = 0x7FFFFFFF ∧
    result (.icmp hd .i32 .lt (.v 5) (.v 1) (.v 2)) 0xFFFFFFFF 0 0 = 0xFFFFFFFF ∧
    result (.icmp hd .n32 .lt (.v 5) (.v 1) (.v 2)) 0xFFFFFFFF 0 0 = 0 ∧
    result (.idot4 hd .i8 false (.v 5) (.v 1) (.v 2) (.v 3)) 0xFF010203 0x02030405 100 = 100 + 15 + 8 + 3 - 2 := by decide +kernel

/-- The high word of R253's sums; a carry out of IADDC and the flag it reads (R252); ISEL by the complement of a flag (R255). -/
theorem test_step_wide_and_carry :
    result (.iadd64 hd .b64 (.v 4) (.v 0) (.v 2)) 1 5 0xFFFFFFFF = 0 ∧
    result (.iadd64 hd .b64 (.v 4) (.v 0) (.const 31)) 1 5 0 = 0 ∧
    result (.imad64 hd .i32 (.v 4) (.v 1) (.v 2) .zero) 0xFFFFFFFF 5 0 = 0xFFFFFFFF ∧
    goes (exec (.iaddc hd .n32 false (.v 5) (.v 1) (.v 2) (.f 0)) (stV [(1, 7, 0xFFFFFFFF), (2, 7, 1)])) (fun t =>
      (t.wave 0).flagOf 0 7 && !(t.wave 0).flagOf 0 6 && (t.wave 0).read (.v 5) 7 == 0) = true ∧
    result (.isel hd .i32 (.v 5) (.v 1) (.v 2) (.nf 0)) 1 2 0 = 1 := by decide +kernel

/-- The manual's table of bit-field and permute results, and shifts by the width or more (R258). -/
theorem test_step_bits :
    result (.bfx hd .n32 (.v 5) (.v 1) (.v 2)) 0xF0F01234 0x0C08 0 = 0x00000012 ∧
    result (.bfx hd .i32 (.v 5) (.v 1) (.v 2)) 0xF0F01234 0x0818 0 = 0xFFFFFFF0 ∧
    result (.clz hd .n32 (.v 5) (.v 1)) 0x12 0 0 = 27 ∧
    result (.fshl hd .n32 (.v 5) (.v 1) (.v 2) (.v 3)) 0x12345678 0x9ABCDEF0 8 = 0x3456789A ∧
    result (.bilv hd .n32 (.v 5) (.v 1) (.v 2)) 3 5 0 = 0x00000027 ∧
    result (.bdil hd .n32 (.v 5) (.v 1)) 0x27 0 0 = 0x00050003 ∧
    result (.prmt hd .n32 (.v 5) (.v 1) (.v 2) (.v 3)) 0x44332211 0x88776655 0xF741 = 0xFF885522 ∧
    result (.shl hd .n32 (.v 5) (.v 1) (.v 2)) 0xFFFFFFFF 32 0 = 0 ∧ result (.shr hd .n32 (.v 5) (.v 1) (.v 2)) 0xFFFFFFFF 31 0 = 1 ∧
    result (.sar hd .n32 (.v 5) (.v 1) (.v 2)) 0x80000000 40 0 = 0xFFFFFFFF ∧
    result (.rotl hd .n32 (.v 5) (.v 1) (.v 2)) 0x80000001 1 0 = 3 ∧
    result (.and hd .n32 (.v 5) (.v 1) (.v 2)) 12 10 0 = 8 ∧ result (.or hd .n32 (.v 5) (.v 1) (.v 2)) 12 10 0 = 14 ∧
    result (.xor hd .n32 (.v 5) (.v 1) (.v 2)) 12 10 0 = 6 ∧ result (.andn hd .n32 (.v 5) (.v 1) (.v 2)) 12 10 0 = 4 ∧
    result (.not hd .n32 (.v 5) (.v 1)) 0 0 0 = 0xFFFFFFFF ∧ result (.ctz hd .n32 (.v 5) (.v 1)) 8 0 0 = 3 ∧
    result (.popc hd .n32 (.v 5) (.v 1)) 0xF1 0 0 = 5 ∧ result (.brev hd .n32 (.v 5) (.v 1)) 1 0 0 = 0x80000000 := by decide +kernel

/-- FP32: a tie to even, a NaN, `-0` against `+0`, saturation, one rounding of a fused product; the four roundings (R265, R266). -/
theorem test_step_float :
    result (.fadd hd .f32 fm (.v 5) (.v 1) (.v 2)) 0x4B800000 0x3F800000 0 = 0x4B800000 ∧
    result (.fadd hd .f32 fm (.v 5) (.v 1) (.v 2)) 0x7F800000 0xFF800000 0 = 0x7FC00000 ∧
    result (.fsub hd .f32 fm (.v 5) (.v 1) (.v 2)) 0x40400000 0x3F800000 0 = 0x40000000 ∧
    result (.fmul hd .f32 ⟨true, false, false, false, false, false⟩ (.v 5) (.v 1) (.v 2)) 0x40000000 0x40400000 0 = 0xC0C00000 ∧
    result (.fmul hd .f32 ⟨false, false, false, false, false, true⟩ (.v 5) (.v 1) (.v 2)) 0x40000000 0x40400000 0 = 0x3F800000 ∧
    result (.ffma hd .f32 fm (.v 5) (.v 1) (.v 2) (.v 3)) 0x3F800001 0x3F800001 0xBF800002 = 0x28800000 ∧
    result (.fcmp hd .f32 false .eq (.v 5) (.v 1) (.v 2)) 0x80000000 0 0 = 0xFFFFFFFF ∧
    result (.fcmp hd .f32 true .lt (.v 5) (.v 1) (.v 2)) 0x7FC00000 0 0 = 0xFFFFFFFF ∧
    result (.fcmp hd .f32 false .ne (.v 5) (.v 1) (.v 2)) 0x7FC00000 0 0 = 0 ∧
    result (.frint hd .f32 .rne (.v 5) (.v 1)) 0x40200000 0 0 = 0x40000000 ∧
    result (.frint hd .f32 .rup (.v 5) (.v 1)) 0x40200000 0 0 = 0x40400000 ∧
    result (.frint hd .f32 .rdn (.v 5) (.v 1)) 0xC0200000 0 0 = 0xC0400000 ∧
    result (.frint hd .f32 .rtz (.v 5) (.v 1)) 0xC0200000 0 0 = 0xC0000000 ∧
    result (.hadd2 hd .h2 fm (.v 5) (.v 1) (.v 2)) 0x3C003800 0x3C003800 0 = 0x40003C00 ∧
    result (.hmul2 hd .b2 fm (.v 5) (.v 1) (.v 2)) 0x40003F80 0x40003F00 0 = 0x40803F00 ∧
    result (.fsqrt hd .f32 (.v 5) (.v 1)) 0xBF800000 0 0 = 0x7FC00000 := by decide +kernel

/-- The manual's table of narrowing results, CVT's worked conversion, bytes packed and unpacked (R269, R270). -/
theorem test_step_conversion :
    result (.cvt hd .f8a .f32 false (.v 5) (.v 1)) 0x43960000 0 0 = 0x79 ∧
    result (.cvt hd .f8a .f32 false (.v 5) (.v 1)) 0x43980000 0 0 = 0x7A ∧
    result (.cvt hd .f8a .f32 false (.v 5) (.v 1)) 0x447A0000 0 0 = 0x7E ∧
    result (.cvt hd .f8a .f32 false (.v 5) (.v 1)) 0x7FC00001 0 0 = 0x7F ∧
    result (.cvt hd .f8b .f32 false (.v 5) (.v 1)) 0x7F800000 0 0 = 0x7B ∧
    result (.cvt hd .d2p8 .f32 false (.v 5) (.v 1)) 0x3F4CCCCD 0 0 = 0x0A ∧
    result (.cvt hd .d2p8 .f32 false (.v 5) (.v 1)) 0x3F500000 0 0 = 0x0A ∧
    narrowTo 5 1 (fp32.dec 0x40400000) = 0x10 ∧
    result (.cvt hd .i32 .f32 false (.v 5) (.v 1)) 0x4F800000 0 0 = 0x7FFFFFFF ∧
    result (.cvt hd .f32 .h2 true (.v 5) (.v 1)) 0x3C000000 0 0 = 0x3F800000 ∧
    result (.pack8 hd .i8 true (.v 5) (.v 1) (.v 2) (.v 3)) 200 0xFFFFFFFF 0x1122 = 0xFF7F1122 ∧
    result (.unpk8 hd .i8 2 (.v 5) (.v 1)) 0x00800000 0 0 = 0xFFFFFF80 ∧
    result (.packd hd .h2 (.v 5) (.v 1) (.v 2)) 0x3F800000 0x40000000 0 = 0x40003C00 := by decide +kernel

/-- The manual's guarded scan, reduction and shuffle: `V1 = 10 (l + 1)` in lanes 0-7, F0 in lanes 0, 1, 2 and 5. -/
def stScan : State :=
  { st with waves := (stW fun w => { (List.range 8).foldl (fun w l => w.setReg (w.vKey 1 l) (.ofNat 32 (10 * (l + 1)))) w with
      flag := [(0, 0x27)] }).waves }

/-- V2 of lanes 0 to 7. -/
def lanes2 (o : Out) : List Word :=
  match o with
  | .next t => (List.range 8).map fun l => (t.wave 0).read (.v 2) l
  | _ => []

theorem test_step_scan_reduce_shuffle :
    lanes2 (exec (.scanw gd .i32 .add true (.v 2) (.v 1)) stScan) = [0, 10, 30, 0, 0, 60, 0, 0] ∧
    lanes2 (exec (.redw gd .i32 .add (.v 2) (.v 1)) stScan) = [120, 120, 120, 0, 0, 120, 0, 0] ∧
    lanes2 (exec (.shfl gd .i32 .down (.v 2) (.v 1) (.const 1)) stScan) = [20, 30, 40, 0, 0, 70, 0, 0] ∧
    lanes2 (exec (.rdlane hd .i32 (.v 2) (.v 1) (.const 3)) stScan) = List.replicate 8 40 ∧
    lanes2 (exec (.vote hd .i32 .ballot (.v 2) (.f 0)) stScan) = List.replicate 8 0x27 ∧
    lanes2 (exec (.quad hd .i32 .swapx 0 (.v 2) (.v 1)) stScan) = [20, 10, 40, 30, 60, 50, 80, 70] ∧
    lanes2 (exec (.matchI hd .i32 (.v 2) (.v 1)) stScan) = (List.range 8).map (fun l => (1 : Word) <<< l) := by decide +kernel

/-- The first two instructions of the manual's loop table: the counters of lanes 0-3 (R197). -/
theorem test_step_structured_flow :
    (let s := stW fun w => { w with slotA := { w.slotA with path := { w.slotA.path with mask := 0xF } }, nest := [(3, 1)], flag := [(0, 3)] }
     goes (exec (.loop hd) s) (fun t => (List.range 4).map (t.wave 0).nestOf == [0, 0, 0, 3]) &&
     goes (exec (.ifI hd (.f 0) 5) { s with waves := s.waves.map fun w => { w with nest := [(3, 3)] } }) (fun t =>
       (List.range 4).map (t.wave 0).nestOf == [0, 0, 1, 4])) = true := by decide +kernel

/-- The home of the manual's tile: die 7, set 0x4032, bank 2 (R74). -/
theorem test_tile_home : dieOfObj 0x2A = 7 ∧ setOfKey 0x00002A20050090 = 0x4032 := by decide +kernel

/-- A 64-bit store to the scratchpad is little-endian, and only those bytes change (R6, R308). -/
theorem test_step_scratch_store :
    (let s := stB fun b => { b with scrUnits := 1 }
     goes (exec (.st hd ⟨.b64, .plain, true, .wave⟩ (.v 4) (.v 0) .zero 16) { s with waves :=
        (stW fun w => { ((w.setReg (w.vKey 4 0) 0x44332211).setReg (w.vKey 5 0) 0x88776655) with
          slotA := { w.slotA with path := { w.slotA.path with mask := 1 } } }).waves }) fun t =>
      (List.range 10).map (fun k => (Sparse.get 0 (t.block 0).scratch (15 + k) : Byte)) ==
        [0, 0x11, 0x22, 0x33, 0x44, 0x55, 0x66, 0x77, 0x88, 0]) = true := by decide +kernel

/-- Every lane adds 1 to one word of the scratchpad, in ascending order: the word ends at 32, and lane 5's result, 5, lands
when its part is done (R223, R312). -/
theorem test_step_scratch_atomic :
    goes (exec (.atomAdd hd ⟨.i32, .plain, true, .wave⟩ (.v 5) .zero .zero 0 (.const 1)) (stB fun b => { b with scrUnits := 1 })) (fun t =>
      (Sparse.get 0 (t.block 0).scratch 0 : Byte) == 32 && (t.wave 0).ldc == 1 &&
      goes (exec (.counterDone 0 0 0xFFFFFFFF) t) (fun u => (u.wave 0).read (.v 5) 5 == 5 && (u.wave 0).ldc == 0)) = true := by decide +kernel

/-- A trap names its cause, its mask and the trapping instruction, and stops the wave (R211-R213, R299). -/
theorem test_step_trap :
    goes (exec (.trap hd 0xBEEF) { st with svcImg := [(0, 2 ^ 63)] }) (fun t => (t.wave 0).life == .trapped &&
      ((t.wave 0).trap.any fun r => r.cause == 0x38 && r.mask == 0xFFFFFFFF && r.pc == 0x100 && r.detail == 0xBEEF)) = true := by decide +kernel

/-- A branch of -3 words from 0x100 (R201, R280). -/
theorem test_step_branch :
    goes (exec (.bra hd 0xFFFFFFFD) (stW fun w => w.setPath false { w.slotA.path with pc := 0x100 })) (fun t =>
      (t.wave 0).slotA.path.pc == 0xF4) = true := by decide +kernel

/-- The manual's group sums over K = 32: BF16 ones against `2^24, 1, 1, …` (R241, R350). -/
theorem test_group_sums : dotFloat 2 2 0 0 (List.replicate 32 0x3F80) (0x4B80 :: List.replicate 31 0x3F80) = 0x4B800010 := by decide +kernel

/-- The manual's impulse through TFFT and TIFT: 1/16 in every bin, and back (R356, R357). -/
theorem test_impulse :
    (fftBlock 16 (0x3F800000 :: List.replicate 15 0)).map toCb16 = 0x3D803D80 :: List.replicate 7 0x00003D80 ∧
    iftBlock 16 ((0x3D800000, 0x3D800000) :: List.replicate 7 (0x3D800000, 0)) = 0x3F800000 :: List.replicate 15 0 := by decide +kernel

/-- Registers at the ends of the window, of K and of the constants pass the checks of a lane instruction. -/
theorem test_meets_LaneInstructionFrame :
    laneDests (.iadd hd .i32 false (.v 31) (.k 63) (.const 63)) = some (hd, [(.v 31, 1)]) ∧ (st.ctx hd).isSome = true ∧
    goes (exec (.iadd hd .i32 false (.v 31) (.k 63) (.const 63)) st) (fun _ => true) = true := by decide +kernel

theorem test_meets_ResultLands : (0xFFFFFFFF : LaneMask).getLsbD 31 = true ∧ (fun _ : Nat => [(5 : Word)]) 31 = [5] ∧
    (fun _ : Nat => [(5 : Word), 6]) 31 = [5, 6] := by decide

theorem test_meets_RetiringInstructions : meets st (fun c => decide (c.wi < st.waves.length)) = true := by decide +kernel

/-- The checks of lane instructions with one, two and four words per destination. -/
theorem test_meets_lane_results :
    meets st (fun c => c.regCheck [(.v 31, 1)] [(.v 30, 1), (.k 63, 1), (.const 63, 1)] == none &&
      c.regCheck [(.v 31, 1)] [(.v 30, 1), (.k 63, 1)] == none && c.regCheck [(.v 31, 1)] [(.v 30, 1)] == none &&
      c.regCheck [(.v 31, 1)] [] == none && c.regCheck [(.v 30, 2)] [(.v 28, 2), (.k 62, 2)] == none &&
      c.regCheck [(.v 30, 2)] [(.v 31, 1), (.k 63, 1), (.v 28, 2)] == none && c.regCheck [(.v 30, 2)] [(.v 28, 2)] == none &&
      c.regCheck [(.v 30, 2)] [] == none && c.regCheck [(.v 28, 4)] [(.v 24, 4)] == none) = true := by decide +kernel

theorem test_meets_IntegerResults : Ty.n16x2.elem = true ∧ (Ty.i32 = .i32 ∨ Ty.i32 = .n32) ∧ (Ty.n8 = .i8 ∨ Ty.n8 = .n8) ∧
    (st.ctx hd).isSome = true := by decide +kernel

theorem test_meets_MoveShiftBitResults : Ty.f32.word = true ∧ (Operand.v 28).isFlag = false ∧ (Ty.n32 = .i32 ∨ Ty.n32 = .n32) := by decide

theorem test_meets_FloatResults : (Ty.h2 = .h2 ∨ Ty.h2 = .b2) ∧ (st.ctx hd).isSome = true := by decide +kernel

theorem test_meets_FunctionAndConversionResults : (0x80000000 < (0xFF800000 : Word).toNat ∧ (0xFF800000 : Word).toNat ≤ 0xFF800000) ∧
    fp32.dec (0x7F800001 : Word).toNat = .nan ∧ Ty.f8a.byteFmt = true ∧ Ty.h2.packedSrc = true := by decide +kernel

theorem test_meets_LaneExchangeResults :
    meets st (fun c => c.crossCheck [(.v 30, regsOfTy .b64)] [(.v 31, 1)] (.v 28) (regsOfTy .b64) (shflFrom c .idx (.v 31)) == none &&
      c.crossCheck [(.v 28, regsOfTy .b64)] [(.k 63, 1)] (.v 26) (regsOfTy .b64) (fun l => ((c.w.read (.k 63) l).extractLsb' 0 5).toNat) == none &&
      c.crossCheck [(.v 31, 1)] [] (.v 30) 1 (quadFrom .swapd 0) == none &&
      c.crossCheck [(.v 31, 1)] [(.v 30, 1)] (.v 30) 1 (fun l => l ^^^ 1) == none &&
      c.crossCheck [(.v 31, 1)] [(.v 30, 1)] (.v 30) 1 (fun l => l ^^^ 2) == none &&
      c.regCheck [(.v 31, 1)] [(.v 30, regsOfTy .b64)] == none && c.converged) = true := by decide +kernel

/-- R177: a load into O0 whose hint copies A there leaves the A value. -/
theorem test_reuse_after_load :
    goes (exec (.ld ⟨.always, ⟨false, 0, true, false⟩⟩ ⟨.i32, .plain, true, .wave⟩ (.o 0) (.v 2) .zero 0) (stB fun b => { b with scrUnits := 1 }))
      (fun t => (t.wave 0).ldc == 1 && (t.wave 0).counted.length == 1 && (t.wave 0).counted.all fun e => e.2.writes == []) = true := by
  decide +kernel

theorem test_meets_VoteMatchReduceResults :
    meets st (fun c => c.regCheck [(.v 31, 1)] [] == none && c.regCheck [(.v 31, 1)] [(.v 30, regsOfTy .b64)] == none &&
      c.regCheck [(.v 31, 1)] [(.k 63, 1)] == none && c.converged) = true ∧ (Ty.n32 = .i32 ∨ Ty.n32 = .n32) := by decide +kernel

/-! ## Statements about waits, special registers, barriers -/

/-- A guard that no lane passes. -/
def off1 : Hdr := ⟨.ifTrue 3, ⟨false, 7, true, true⟩⟩

theorem test_meets_WaitsAndHints :
    meets st (fun c => !st.ferryBusy c.wi && c.act != 0 && decide (c.w.ldc ≤ 0 ∧ c.w.stc ≤ 0 ∧ c.w.cpc ≤ 0 ∧ c.w.tlc ≤ 0)) = true ∧
    (st.ctx off1).any (fun c => c.act == 0) = true ∧
    meets { st with cores := [(0, { ferry := [.pop 0 1] })] } (fun c => ({ st with cores := [(0, { ferry := [.pop 0 1] })] } : State).ferryBusy c.wi) = true ∧
    meets (stW fun w => { w with ldc := 63, stc := 63, cpc := 63, tlc := 63 }) (fun c => decide (62 < c.w.ldc ∧ 62 < c.w.stc ∧ 62 < c.w.cpc ∧ 62 < c.w.tlc)) = true ∧
    meets { stB (fun b => { b with tpend := 1 }) with waves := (stW fun w => { w with regs := [(kKey 62, 1)] }).waves } (fun c =>
      c.regCheck [] [(.k 62, 2)] == none && c.w.read64 (.k 62) 0 &&& c.b.tpend != 0 && c.w.read64 (.k 62) 0 &&& c.b.tags == 0 &&
      (c.w.slot c.isB).held == none) = true ∧
    -- the mask read at issue stands in the slot, and the register has changed since
    meets { stB (fun b => { b with tpend := 1 }) with waves := (stW fun w => { w with slotA := { w.slotA with waiting := true, held := some 1 } }).waves }
      (fun c => c.waiting && (c.w.slot c.isB).held == some 1 && (1 : DWord) &&& c.b.tpend != 0 && c.w.read64 (.k 62) 0 == 0) = true ∧
    (let s := stB fun b => { b with bb := List.replicate 15 {} ++ [{ expect := 32, members := 1, e := 32 }] }
     meets s fun c => c.memberCheck s .bb 15 false == none && c.act != 0 && (c.w.slot c.isB).held == none &&
      c.regCheck [] [(.v 31, 1)] == none && ((barrierOf s c .bb 15).phase == (c.w.read (.v 31) 0).getLsbD 0)) = true ∧
    (let s := { stB (fun b => { b with bb := List.replicate 15 {} ++ [{ expect := 32, members := 1, e := 32, turns := 5 }] }) with
                waves := (stW fun w => { w with slotA := { w.slotA with waiting := true, held := some 5, sync := some 5 } }).waves }
     meets s fun c => c.waiting && c.act != 0 && c.converged && c.memberCheck s .bb 15 true == none &&
      (c.w.slot c.isB).held == some (BitVec.ofNat 64 (barrierOf s c .bb 15).turns) && (c.w.slot c.isB).sync == some (barrierOf s c .bb 15).turns) = true := by
  decide +kernel

theorem test_meets_SpecialRegisters :
    meets st (fun c => c.regCheck [(.v 30, 2)] [] == none && c.regCheck [] [(.k 62, 2)] == none && decide (c.bi < st.blocks.length) &&
      c.act != 0 && !c.w.spawned && decide (c.b.x < 65536 ∧ c.b.y < 65536 ∧ c.b.z < 65536)) = true ∧ st.clk < 2 ^ 64 ∧
    (st.ctx off1).any (fun c => c.act == 0) = true ∧ meets (stW fun w => { w with spawned := true }) (fun c => c.w.spawned) = true := by
  decide +kernel

theorem test_meets_TrapInstructions : meets st (fun c => c.act != 0) = true ∧ (st.ctx off1).any (fun c => c.act == 0) = true := by
  decide +kernel

theorem test_meets_InstructionCacheInvalidate :
    meets { st with cores := [(159, { icache := [⟨0, 0, [], 0⟩] })] } (fun c => c.act != 0) = true ∧
    (st.ctx off1).any (fun c => c.act == 0) = true := by decide +kernel

theorem test_meets_DeviceSideLaunch :
    meets st (fun c => c.act != 0 && c.regCheck [(.v 31, 1)] [(.k 62, 2)] == none && (c.w.read64 (.k 62) 0).extractLsb' 56 8 == 0 &&
      (c.w.read64 (.k 62) 0).extractLsb' 0 6 == 0) = true := by decide +kernel

/-- Tags 0 and 63 ready, 63 with an error. -/
def stTags : State := { stB (fun b => { b with tags := 0x8000000000000001, terr := 0x8000000000000000 }) with
  waves := (stW fun w => { w with regs := [(kKey 60, 1), (kKey 63, 0x80000000)] }).waves }

theorem test_meets_TagWaits :
    meets stTags (fun c => c.regCheck [] [(.k 62, 2)] == none && c.act != 0 && c.w.read64 (.k 62) 0 &&& c.b.tpend == 0 &&
      c.w.read64 (.k 62) 0 &&& c.b.tags != 0 && (c.w.read64 (.k 62) 0 &&& c.b.tags &&& c.b.terr).getLsbD 63 &&
      (List.range 63).all (fun k => !(c.w.read64 (.k 62) 0 &&& c.b.tags &&& c.b.terr).getLsbD k) &&
      c.regCheck [(.v 31, 1)] [(.k 62, 2)] == none) = true ∧
    meets stTags (fun c => c.regCheck [] [(.k 60, 2)] == none && c.w.read64 (.k 60) 0 &&& c.b.tags &&& c.b.terr == 0 &&
      (c.w.read64 (.k 60) 0 &&& c.b.tags).getLsbD 0) = true ∧
    meets stTags (fun c => c.w.read64 (.k 58) 0 &&& c.b.tags == 0) = true ∧
    meets { stTags with waves := (stW fun w => { w with slotA := { w.slotA with waiting := true, held := some 1 } }).waves } (fun c =>
      c.waiting && (c.w.slot c.isB).held == some 1 && (1 : DWord) &&& c.b.tags != 0 && (1 : DWord) &&& c.b.tags &&& c.b.terr == 0) = true ∧
    (stTags.ctx off1).any (fun c => c.act == 0 && !c.waiting && c.regCheck [] [(.k 62, 2)] == none) = true := by decide +kernel

/-- A member of block barrier 15, of two arrivals; barriers 0 to 14 are not in use. -/
def stBar : State := stB fun b => { b with bb := List.replicate 15 {} ++ [{ expect := 2, members := 1, e := 2, count := 1 }] }

theorem test_meets_BarrierInstructions :
    meets stBar (fun c => c.converged && c.memberCheck stBar .bb 15 true == none && c.act != 0 && (c.w.slot c.isB).sync == none &&
      c.regCheck [] [(.v 31, 1)] == none && c.memberCheck stBar .bb 15 false == none && c.regCheck [(.v 31, 1)] [] == none &&
      decide ((barrierOf stBar c .bb 15).count < 4096 ∧ (barrierOf stBar c .bb 15).e < 4096)) = true ∧
    meets { stBar with waves := (stW fun w => { w with regs := [(w.vKey 31 0, 1)] }).waves } (fun c => (c.w.slot c.isB).held == none &&
      (barrierOf stBar c .bb 15).phase != (c.w.read (.v 31) 0).getLsbD 0) = true ∧
    (let s := { stBar with waves := (stW fun w => { w with slotA := { w.slotA with waiting := true, held := some 7, sync := some 7 } }).waves }
     meets s fun c => c.act != 0 && c.converged && c.memberCheck s .bb 15 true == none && (c.w.slot c.isB).sync == some 7 &&
      (c.w.slot c.isB).held == some 7 && (barrierOf s c .bb 15).turns != 7 && BitVec.ofNat 64 (barrierOf s c .bb 15).turns != 7) = true ∧
    meets stBar (fun c => c.memberCheck stBar .bb 0 true != none && c.memberCheck stBar .gb 3 true != none) = true := by decide +kernel

/-! ## Statements about control flow -/

/-- Flag 0 is true in lanes 0 to 15. -/
def halfFlag (w : Wave) : Wave := { w with flag := [(0, 0x0000FFFF)] }
/-- The other slot is in use. -/
def withB (w : Wave) : Wave := { w with slotA := { w.slotA with path := { w.slotA.path with mask := 0x0000FFFF } },
                                        slotB := { valid := true, path := { mask := 0xFFFF0000, pc := 0x200 } } }

/-- The lanes a BRC takes. -/
def takenOf (c : Ctx) (x : Operand) : LaneMask := maskOf fun l => c.act.getLsbD l && c.w.cond x l

theorem test_meets_Branches :
    meets st (fun c => takenOf c (.f 0) == 0) = true ∧ meets st (fun c => takenOf c (.nf 0) != 0 && takenOf c (.nf 0) == c.mask) = true ∧
    meets (stW halfFlag) (fun c => takenOf c (.f 0) == 0xFFFF && takenOf c (.f 0) != c.mask && !(c.w.slot (!c.isB)).valid) = true ∧
    meets (stW fun w => { withB w with flag := [(0, 1)] }) (fun c => takenOf c (.f 0) == 1 && takenOf c (.f 0) != c.mask &&
      (c.w.slot (!c.isB)).valid && decide (c.w.split.length < c.w.splitMax)) = true ∧
    meets (stW fun w => { withB w with flag := [(0, 1)], splitMax := 0 }) (fun c => takenOf c (.f 0) != 0 && takenOf c (.f 0) != c.mask &&
      (c.w.slot (!c.isB)).valid && decide (c.w.splitMax ≤ c.w.split.length)) = true ∧
    (∀ l < 32, (0xFFFF : LaneMask).getLsbD l = ((0xFFFFFFFF : LaneMask).getLsbD l && (halfFlag {}).flagOf 0 l)) := by decide +kernel

/-- Lanes 16 to 31 are parked on J7 in slot B, at a depth. -/
def parkedB (d : Nat) (w : Wave) : Wave :=
  { withB w with jreg := [(7, 0x0000FFFF)], slotB := { valid := true, path := { mask := 0xFFFF0000, pc := 0x200, depth := d, park := true, pj := 7 } } }

theorem test_meets_Joins :
    meets (stW fun w => { withB w with jreg := [(7, 0xFFFFFFFF)] }) (fun c => c.w.jOf 7 &&& ~~~ c.mask != 0 && c.w.eligible (!c.isB)) = true ∧
    meets (stW (parkedB 0)) (fun c => c.w.jOf 7 &&& ~~~ c.mask == 0 && (c.w.parkedOthers c.isB 7).length == 1 &&
      (c.w.parkedOthers c.isB 7).all fun p => p.depth == c.path.depth) = true ∧
    meets (stW (parkedB 1)) (fun c => c.w.jOf 7 &&& ~~~ c.mask == 0 && (c.w.parkedOthers c.isB 7).any fun p => p.depth != c.path.depth) = true := by
  decide +kernel

theorem test_meets_StructuredFlow :
    meets (stW fun w => { w with nest := [(0, 62)] }) (fun c => (List.range 32).all fun l => decide (c.w.nestOf l < 63)) = true ∧
    meets (stW fun w => { w with nest := [(0, 61)] }) (fun c => (List.range 32).all fun l => decide (c.w.nestOf l < 62)) = true ∧
    meets (stW fun w => { w with nest := [(31, 63)] }) (fun c => c.mask.getLsbD 31 && decide (63 ≤ c.w.nestOf 31)) = true ∧
    meets (stW fun w => { w with nest := [(31, 62)] }) (fun c => c.mask.getLsbD 31 && decide (62 ≤ c.w.nestOf 31)) = true := by
  decide +kernel

/-- `Together` and `CallFits`, to compute. -/
def together (c : Ctx) (t : Nat → DWord) (q : DWord) : Bool :=
  c.act != 0 && (lanesOf c.act).all (fun l => t l == q) && (List.range 32).all fun l => !c.w.laneOn c.isB l || c.act.getLsbD l
def callFits (s : State) (c : Ctx) (f : Nat) : Bool :=
  decide (4 * f ≤ c.w.win ∧ c.w.depth ≠ 4096 ∧ c.w.frameSum + 4 * f ≤ 512 * c.w.spillUnits ∧
    (s.core c.b.core).buffered + spillSize ((c.go s).callWindow c.wi (4 * f) (c.pc + 12)).2 ≤ 512)

/-- A wave with one frame. -/
def framed (sp : Bool) (w : Wave) : Wave := { w with frames := [⟨0x40, 8, sp, 0⟩], res := 32, onchip := 1, wb := 32 }

theorem test_meets_CallsAndReturns :
    meets st (fun c => together c (fun _ => targetOf c 5) (targetOf c 5) && callFits st c 8 && decide (c.w.win < 4 * 31) &&
      decide (c.w.res + 4 * 8 ≤ c.w.ringN - c.w.win ∧ c.w.depth < 16) && c.regCheck [] [(.v 30, 1), (.v 31, 1)] == none &&
      together c (fun l => c.w.read (.v 31) l ++ c.w.read (.v 30) l) 0 && c.w.frames == []) = true ∧
    meets (stW fun w => { w with regs := [(kKey 0, 2)] }) (fun c =>
      together c (fun l => c.w.read .zero l ++ c.w.read (.k 0) l) 2 && ((2 : DWord).extractLsb' 0 2 != 0)) = true ∧
    meets (stW fun w => { w with spillUnits := 0 }) (fun c => decide (4 ≤ c.w.win) && decide (512 * c.w.spillUnits < c.w.frameSum + 4)) = true ∧
    (st.ctx off1).any (fun c => c.act == 0) = true ∧
    meets (stW (framed false)) (fun c => c.w.frames.getLast?.any (fun f => !f.spilled) && c.w.onchip != 0 && c.retStrays == 0) = true ∧
    meets (stW (framed true)) (fun c => c.w.frames.getLast?.any (fun f => f.spilled) && c.retStrays == 0 && !c.waiting) = true ∧
    -- a ring that is full, and a Ferry whose buffer is
    (let s := { stW (fun w => { framed false w with res := w.ringN - w.win, wb := 32 }) with
                cores := [(0, { ferry := [.spill 0 0 0 (List.replicate 512 ([], 0))] })] }
     meets s fun c => decide (4 * 8 ≤ c.w.win ∧ c.w.depth ≠ 4096 ∧ c.w.frameSum + 4 * 8 ≤ 512 * c.w.spillUnits ∧
       512 < (s.core c.b.core).buffered + spillSize ((c.go s).callWindow c.wi (4 * 8) (c.pc + 12)).2) && together c (fun _ => targetOf c 5) (targetOf c 5)) = true := by decide +kernel

theorem test_meets_ReturnRestoresWindow : let w : Wave := {}
    w.wb < w.ringN ∧ w.res + 4 * 8 ≤ w.ringN - w.win ∧ w.depth < 16 := by decide

theorem test_meets_ExitLanes : (st.ctx hd).isSome = true := by decide +kernel

/-! ## Statements about memory -/

/-- `Clear`, to compute. -/
@[reducible] def clearDec (s : State) (c : Ctx) (scr aligned : Bool) (acc : Access) (accs : List (Nat × Nat)) (w : Nat) :
    Decidable (Clear s c scr aligned acc accs w) := by unfold Clear; infer_instance
def clear (s : State) (c : Ctx) (scr aligned : Bool) (acc : Access) (accs : List (Nat × Nat)) (w : Nat) : Bool :=
  @decide _ (clearDec s c scr aligned acc accs w)

/-- One unit of scratchpad, and lane `l` at offset 8 * l of it. -/
def stScr : State := { stB (fun b => { b with scrUnits := 1 }) with
  waves := (stW fun w => { w with regs := Sparse.setAll 0 [] ((List.range 32).map fun l => (w.vKey 2 l, .ofNat 32 (8 * l))) }).waves }
/-- Forms of an access. -/
def scrMod : MemMod := ⟨.b64, .plain, true, .wave⟩
def genMod : MemMod := ⟨.i32, .plain, false, .wave⟩

theorem test_meets_Loads :
    meets stScr (fun c => c.act != 0 && decide (c.w.ldc < 63) && c.regCheck [(.v 30, 2)] [(.v 2, 1), (.zero, 1)] == none &&
      clear stScr c true true .load (c.accs true (.v 2) .zero 3840) 8) = true ∧
    meets stScr (fun c => c.regCheck [(.v 31, 1)] [(.v 2, 1), (.zero, 1)] == none &&
      clear stScr c false true .load (c.accs false (.v 2) .zero 4) 4 && (stScr.core c.b.core).l1 == [] && stScr.cmp.stored == [] && !c.b.svc &&
      (c.accs false (.v 2) .zero 4).all fun x => decide ((stScr.locOf c .load x.2).key < windowTop)) = true := by decide +kernel

/-- Window 15 is bound to 64 bytes at VA 256. -/
def stWin : State := { stScr with grids := (stG fun g => { g with record := List.replicate 4 0 ++ [0x80000000], pw := List.replicate 15 (0, 0) ++ [(256, 64)] }).grids }

theorem test_meets_AccessTraps :
    meets stScr (fun c => decide (c.w.ldc < 63 ∧ c.w.stc < 63) && c.regCheck [(.v 31, 1)] [(.v 2, 1), (.zero, 1)] == none &&
      (c.boundCheck stScr true (c.accs true (.v 2) .zero 3849) 4).isSome && c.boundCheck stScr true (c.accs true (.v 2) .zero 2) 4 == none &&
      (alignCheck (c.accs true (.v 2) .zero 2) 4).isSome && c.regCheck [] [(.v 31, 1), (.v 2, 1), (.zero, 1)] == none) = true ∧
    (let s := { stScr with cores := [(0, { locks := [some ⟨true, 2, 0, 5, 0, 0, 0, 31, 0⟩] })] }
     meets s fun c => alignCheck (c.accs true (.v 2) .zero 0) 4 == none && c.boundCheck s true (c.accs true (.v 2) .zero 0) 4 == none &&
      (c.lockCheck s false true (c.accs true (.v 2) .zero 0) 4).isSome && (c.lockCheck s true true (c.accs true (.v 2) .zero 0) 4).isSome) = true := by
  decide +kernel

theorem test_meets_Stores :
    meets stScr (fun c => c.act != 0 && decide (c.w.stc < 63) && decide (c.bi < stScr.blocks.length) &&
      c.regCheck [] [(.v 30, 2), (.v 2, 1), (.zero, 1)] == none && clear stScr c true true .store (c.accs true (.v 2) .zero 3840) 8 &&
      c.regCheck [] [(.v 31, 1), (.v 2, 1), (.zero, 1)] == none && clear stScr c false false .store (c.accs false (.v 2) .zero 3) 4 &&
      (c.accs false (.v 2) .zero 3).all (fun x => (span x.2 4).all fun a => decide ((stScr.locOf c .store a).key < windowTop) &&
        !(stScr.locOf c .store a).bypass)) = true ∧ stScr.heapInForce = false := by decide +kernel

theorem test_meets_Atomics :
    meets stScr (fun c => clear stScr c true true .atomic (c.accs true (.v 2) .zero 3840) 8 &&
      clear stScr c false true .atomic (c.accs false (.v 2) .zero 4) 4 && decide (c.w.counter .ld < 63 ∧ c.w.counter .st < 63) &&
      c.regCheck ([Operand.v 30].map fun o => (o, 2)) ([(.v 2, 1), (.zero, 1), (.v 28, 2)] ++ [(.v 26, 2)]) == none &&
      c.regCheck [] ([(.v 2, 1), (.zero, 1), (.v 31, 1)] ++ []) == none && c.b.scrPoison == [] &&
      (c.accs false (.v 2) .zero 4).all fun y => (span y.2 4).all fun a => decide ((stScr.locOf c .atomic a).key < windowTop)) = true ∧
    (stScr.core 0).l1 = [] ∧ stScr.poison = [] ∧ stScr.hbmErr = [] ∧ (stScr.block 0).svc = false ∧ stScr.cmp.stored = [] ∧ stScr.cmp.en = false ∧ stScr.heapInForce = false := by
  decide +kernel

/-- The core's L1 holds a line with a dirty byte. -/
def stDirty : State := { st with cores := [(0, { l1 := [{ loc := 0x1000, valid := 1, poison := 0, dirty := 1, data := 0x5A }] })] }

theorem test_meets_FencesAndHints :
    meets stDirty (fun c => c.act != 0 && (stDirty.core c.b.core).l1.all fun ln => ln.loc % 256 == 0 && decide (ln.loc < windowTop) && ln.isDirty 0) = true ∧
    (let s := { stScr with waves := (stW fun w => { w with regs := [(kKey 0, 128)] }).waves }
     meets s fun c =>
      let accs := c.accs false .zero .zero 64
      let secs := accs.flatMap fun x => (discardVas x.2 (c.w.read (.k 0) x.1).toNat).map fun va => (x.1, va)
      c.act != 0 && decide (c.w.stc < 63) && c.regCheck [] [(.k 0, 1), (.zero, 1), (.zero, 1)] == none && !s.heapInForce &&
      accs.all (fun x => s.rangeOk x.2 (c.w.read (.k 0) x.1).toNat && x.2 % 64 == 0 && (c.w.read (.k 0) x.1).toNat % 64 == 0) &&
      secs != [] && c.lockCheck s true false secs 64 == none && c.cancelCheck secs 64 == none &&
      s.misses c.unit c.space .store (walkedVas secs 64) == [] && c.landingCheck s true secs 64 == none &&
      c.specCheck secs 64 == none && accs.all fun x => (s.lookup c.unit c.space .load x.2).isSome) = true := by decide +kernel

theorem test_meets_WindowLoads :
    meets stWin (fun c => c.regCheck [(.v 31, 1)] [(.v 2, 1)] == none && stWin.cmp.stored == [] && !c.b.svc && c.window 14 == none && c.window 15 == some (256, 64) &&
      (let bytes := ldpBytes 256 64 ((lanesOf c.act).map fun l => (l, (c.w.read (.v 2) l).toNat + 62)) 4
       bytes.length == 2 && clear stWin c false false .load bytes 1 && (stWin.core c.b.core).l1 == [] &&
        bytes.all fun x => decide ((stWin.locOf c .load x.2).key < windowTop)) &&
      (let bytes := ldpBytes 256 64 ((lanesOf c.act).map fun l => (l, (c.w.read (.v 2) l).toNat)) 4
       bytes.length == 32 && clear stWin c false false .load bytes 1)) = true := by decide +kernel

/-! ## Statements about engine instructions -/

/-- `EngineReady` with a tag, to compute. -/
def ready (s : State) (c : Ctx) (kind : EngKind) (rs : List EngRange) (tag : Option Nat) : Bool :=
  s.locksFit (realRanges rs) && s.engineFree c.b.core c.bi kind && (tag.all fun g => !c.b.tpend.getLsbD g) &&
    c.rangeCheck s rs == none && decide (c.bi < s.blocks.length) && c.act != 0
theorem test_ready_says {s : State} {c : Ctx} {kind : EngKind} {rs : List EngRange} {tag : Option Nat} (h : ready s c kind rs tag = true) :
    EngineReady s c kind rs tag := by
  cases tag <;> simp_all [ready, EngineReady]

/-- Operands of engine instructions in K, the ends of the scratchpad, group 63 with this die a member. -/
def stEng : State :=
  { stB (fun b => { b with scrUnits := 16, accUnits := 16, tpend := 1 }) with
    waves := (stW fun w => { w with regs := [(kKey 0, 0xFFF0), (kKey 2, 0x4000), (kKey 4, 16), (kKey 6, 8)] }).waves
    coll := { groups := [(63, (0x8001000000000000, 0))] } }

theorem test_meets_CopyEngineIssue :
    meets stEng (fun c => decide (c.w.cpc < 63) && c.regCheck [] [(.k 0, 1), (.k 2, 2), (.k 4, 1)] == none && c.roleCheck [1, 3] == none &&
      (let rs := [(⟨c.b.core, c.bi, false, false, 0x4000, 16⟩ : EngRange), ⟨c.b.core, c.bi, true, true, 0xFFF0, 16⟩]
       addrOf c true (.k 0) == 0xFFF0 && addrOf c false (.k 2) == 0x4000 && (c.w.read (.k 4) 0).toNat == 16 &&
        ready stEng c .copy rs (some 63) && ready stEng c .coll rs (some 63) && stEng.rangeOk 0x4000 16 &&
        decide (0xFFF0 + 16 ≤ 4096 * c.b.scrUnits)) &&
      ready stEng c .copy [⟨c.b.core, c.bi, false, false, 0x4000, 0⟩, ⟨c.b.core, c.bi, true, true, 0xFFF0, 0⟩] (some 63) &&
      -- a misaligned destination, and a tag that is pending
      addrOf c true (.k 6) == 8 && ready stEng c .copy [⟨c.b.core, c.bi, false, false, 0x4000, 16⟩, ⟨c.b.core, c.bi, true, true, 8, 16⟩] (some 63) &&
      c.b.tpend.getLsbD 0 &&
      -- GATHER of one row of 16 bytes
      ready stEng c .copy [⟨c.b.core, c.bi, false, false, 0x4000, 4⟩, ⟨c.b.core, c.bi, true, true, 0xFFF0, 16⟩] (some 63) &&
      (16 * collBytes .n8 + 15) / 16 * 16 == 16 && (stEng.collGroup 63).1.getLsbD 63 && (stEng.collGroup 63).1.getLsbD (48 + dieOf c.b.core)) = true := by decide +kernel

/-- The same in a block with a COPY wave beside its GEN one, which issues. -/
def stRole : State := { stEng with grids := stEng.grids.map fun g => { g with record := List.replicate 64 0xFFFFFFFFFFFFFFFF } }
theorem test_meets_CopyEngineIssue_role :
    meets stRole (fun c => c.act != 0 && c.roleCheck [1, 3] != none && c.regCheck [] [(.k 0, 1), (.k 2, 2), (.k 4, 1)] == none) = true := by
  decide +kernel

/-- Two blocks of a gang on cores 0 and 3. -/
def stGang : State :=
  { stEng with blocks := [{ (stEng.block 0) with tpend := 0, bb := [{ expect := 1, members := 1, e := 1 }] },
                          { grid := 0, core := 3, rank := 1, scrUnits := 16, bb := [{ expect := 1, members := 1, e := 1 }] }] }

theorem test_meets_CopyMulticastIssue :
    meets stGang (fun c => decide (c.w.cpc < 63) && c.regCheck [] [(.k 0, 1), (.k 2, 2), (.k 4, 1)] == none && c.roleCheck [1, 3] == none && !c.b.spawned &&
      maskCores c.b.core 9 == [0, 3] && stGang.gangBlockOn c.b 0 == some 0 && stGang.gangBlockOn c.b 3 == some 1 &&
      ready stGang c .copy [⟨c.b.core, c.bi, false, false, 0x4000, 16⟩, ⟨0, 0, true, true, 0xFFF0, 16⟩, ⟨3, 1, true, true, 0xFFF0, 16⟩] (some 63) &&
      stGang.rangeOk 0x4000 16 && [0, 1].all fun r => decide (0xFFF0 + 16 ≤ 4096 * (stGang.block r).scrUnits) &&
        ((stGang.block r).bb.getD 0 {}).expect != 0) = true ∧
    meets stGang (fun c => maskCores c.b.core 4 == [2] && stGang.gangBlockOn c.b 2 == none && c.act != 0 && !c.b.tpend.getLsbD 63 &&
      stGang.engineFree c.b.core c.bi .copy) = true ∧ stGang.cores = [] := by decide +kernel

/-- A tensor entry: space, format, domain, base, rows, columns, stride and circulant code. -/
def ent (space fmt : Nat) (freq : Bool) (base rows cols stride blk : Nat) : BitVec 256 :=
  .ofNat 256 (2 ^ 63 + space * 2 ^ 61 + fmt * 2 ^ 57 + freq.toNat * 2 ^ 56 + base
    + 2 ^ 64 * ((rows - 1) * 2 ^ 44 + (cols - 1) * 2 ^ 24) + 2 ^ 128 * (stride * 2 ^ 32 + blk * 2 ^ 13))

theorem test_meets_TensorEntries :
    meets (stW fun w => { w with regs := [(kKey 57, 0x80000000)] }) (fun c => c.regCheck [] [(.k 56, 8)] == none && c.act != 0 &&
      c.regCheck [(.k 56, 8)] [] == none && (List.range 8).all fun j => (0x8000000000000000 : BitVec 256).extractLsb' (32 * j) 32 == c.w.readAt (.k 56) 0 j) = true ∧
    tensValid (ent 0 1 false 0x4000 64 64 128 0) = true ∧ tensValid (0x8000000000000000 : BitVec 256) = false ∧
    (∀ j < 8, (ent 0 1 false 0x4000 64 64 128 0).extractLsb' (32 * j) 32 = (ent 0 1 false 0x4000 64 64 128 0).extractLsb' (32 * j) 32) := by
  decide +kernel

/-- `MatrixReady` with a tag, to compute. -/
def matReady (s : State) (c : Ctx) (kind : EngKind) (roles : List (Fin 4)) (es : List Operand) (rs : List EngRange) (tag : Option Nat) : Bool :=
  decide (c.w.tlc < 63) && c.roleCheck roles == none && c.converged && es.all (fun o => (c.tens o).v) &&
    (c.extentChecks s (es.map c.tens)).all (· == none) && ready s c kind rs tag
theorem test_matReady_says {s : State} {c : Ctx} {kind : EngKind} {roles : List (Fin 4)} {es : List Operand} {rs : List EngRange}
    {tag : Option Nat} (h : matReady s c kind roles es rs tag = true) : MatrixReady s c kind roles es rs tag := by
  simp only [matReady, Bool.and_eq_true, decide_eq_true_eq, beq_iff_eq, List.all_eq_true] at h
  exact ⟨h.1.1.1.1.1, h.1.1.1.1.2, h.1.1.1.2, h.1.1.2, fun k hk => h.1.2 k hk, test_ready_says h.2⟩

/-- `ProductShape`, to compute. -/
def shaped (bt : Bool) (td ta tb : Tens) : Bool :=
  td.rows == ta.rows && if bt then tb.rows == td.cols && tb.cols == ta.cols else tb.rows == ta.cols && tb.cols == td.cols

/-- Entries: 0 an accumulator of FP32, 1 and 2 FP16 in memory, 3 packed D2P8, 4 to 6 in the frequency domain (accumulator, memory,
memory), 7 FP32 in memory, 8 a scratchpad entry of FP16, 63 FP16 in memory with 32 columns. -/
def stTens : State :=
  { stEng with blocks := [{ (stEng.block 0) with tpend := 0, tens := [(0, ent 2 0 false 0 32 32 128 0), (1, ent 0 1 false 0x4000 32 32 64 0),
      (2, ent 0 1 false 0x5000 32 32 64 0), (3, ent 0 5 false 0x6000 32 32 64 0), (4, ent 2 7 true 0 8 64 512 0), (5, ent 0 6 true 0x4000 8 8 64 0),
      (6, ent 0 6 true 0x5000 8 8 64 0), (7, ent 0 6 true 0x6000 8 64 512 0), (8, ent 1 1 false 0x100 32 32 64 0),
      (9, ent 0 6 true 0x7000 32 16 64 0), (10, ent 0 1 false 0x9000 32 32 64 0)] }] }

theorem test_meets_MatrixIssue :
    meets stTens (fun c =>
      let rs := fun (d : Bool) (os : List Operand) => os.flatMap fun o => c.tensRange d (c.tens o)
      matReady stTens c .matLoad [2] [.t 0, .t 1, .t 2] (rs false [.t 1, .t 2]) (some 63) &&
      shaped false (c.tens (.t 0)) (c.tens (.t 1)) (c.tens (.t 2)) && shaped true (c.tens (.t 0)) (c.tens (.t 1)) (c.tens (.t 2)) &&
      tmmaFormats (c.tens (.t 1)).fmt (c.tens (.t 2)).fmt (c.tens (.t 0)).fmt &&
      matReady stTens c .matLoad [2] [.t 0, .t 1, .t 3] (rs false [.t 1, .t 3]) (some 63) &&
      tmmdFormats (c.tens (.t 1)).fmt (c.tens (.t 3)).fmt (c.tens (.t 0)).fmt) = true ∧
    -- TVMM: every lane names the weights at 0x4000
    meets stTens (fun c => c.regCheck [] [(.k 2, 2)] == none && (c.w.read64 (.k 2) 31).toNat == 0x4000 &&
      matReady stTens c .matLoad [2] [.t 0, .t 8] (c.tensRange false (c.tens (.t 8)) ++ [⟨c.b.core, c.bi, false, false, 0x4000, (c.tens (.t 1)).extent⟩]) (some 63) &&
      decide (32 ≤ (c.tens (.t 8)).rows) && stTens.rangeOk 0x4000 (c.tens (.t 1)).extent && (c.tens (.t 1)).rows == (c.tens (.t 8)).cols) = true ∧
    -- TMMS
    meets stTens (fun c =>
      let td := c.tens (.t 4)
      let ta := c.tens (.t 5)
      let tb := c.tens (.t 6)
      matReady stTens c .matLoad [2] [.t 4, .t 5, .t 6] (c.tensRange false ta ++ c.tensRange false tb) (some 63) && td.freq && ta.freq &&
        ta.cols == tb.cols && td.rows == tb.rows && td.cols == ta.rows * (ta.b / 2) && ta.blk == tb.blk && ta.blk == td.blk && sigmaOk (ta.sigma + tb.sigma) &&
        !td.sfix) = true ∧
    -- TZERO, TACCLD and TACCST in both domains
    meets stTens (fun c => matReady stTens c .matLoad [2] [.t 0] [] none && c.regCheck [] [(.k 63, 1)] == none &&
      matReady stTens c .matLoad [2, 3] [.t 4, .t 7] (c.tensRange false (c.tens (.t 7))) (some 63) && taccldFormats true (c.tens (.t 7)).fmt (c.tens (.t 4)).fmt &&
      matReady stTens c .matLoad [2, 3] [.t 0, .t 1] (c.tensRange false (c.tens (.t 1))) (some 63) && taccldFormats false (c.tens (.t 1)).fmt (c.tens (.t 0)).fmt &&
      matReady stTens c .matStore [3] [.t 7, .t 4] (c.tensRange true (c.tens (.t 7))) (some 63) && (c.tens (.t 7)).fmt == 6 &&
      (c.tens (.t 7)).rows == (c.tens (.t 4)).rows && (c.tens (.t 7)).cols == (c.tens (.t 4)).cols &&
      matReady stTens c .matStore [3] [.t 1, .t 0, .t 2] (c.tensRange true (c.tens (.t 1))) (some 63) && narrowFmt (c.tens (.t 1)).fmt &&
      (c.tens (.t 2)).cols == (c.tens (.t 1)).cols && decide ((c.tens (.t 2)).fmt ≤ 2)) = true ∧
    meets { stTens with waves := (stW fun w => { w with regs := [(kKey 63, 0x3F800000)] }).waves } (fun c => c.w.read (.k 63) 0 == 0x3F800000) = true := by
  decide +kernel

theorem test_meets_TransformIssue :
    meets stTens (fun c =>
      let okp := fun (d a : Operand) => (c.tens d).v && (c.tens a).v && (c.tens d).inMem && (c.extentChecks stTens [c.tens d, c.tens a]).all (· == none) &&
        ready stTens c .ctu (c.tensRange false (c.tens a) ++ c.tensRange true (c.tens d)) (some 63) && (c.tens d).rows == (c.tens a).rows && (c.tens d).blk == (c.tens a).blk
      okp (.t 9) (.t 1) && (c.tens (.t 1)).cols % (c.tens (.t 1)).b == 0 && 2 * (c.tens (.t 9)).cols == (c.tens (.t 1)).cols &&
        sigmaOk ((c.tens (.t 1)).beta + (c.tens (.t 1)).logb) && (c.tens (.t 9)).fmt == 6 && !(c.tens (.t 1)).freq &&
      okp (.t 10) (.t 9) && (c.tens (.t 10)).cols == 2 * (c.tens (.t 9)).cols && sigmaOk ((c.tens (.t 9)).sigma - (c.tens (.t 9)).logb) &&
      okp (.t 6) (.t 5) && (c.tens (.t 6)).cols == (c.tens (.t 5)).cols &&
      ready stTens c (.pipe (c.w.part.val / 4)) (c.tensRange false (c.tens (.t 1)) ++ c.tensRange true (c.tens (.t 2))) (some 63) &&
      narrowFmt (c.tens (.t 1)).fmt && narrowFmt (c.tens (.t 2)).fmt && decide (c.w.tlc < 63 ∧ c.w.cpc < 63)) = true := by decide +kernel

/-- At 0x4000 a ray descriptor of one record, its rays at 0x8000 and its hits at 0x9000; at 0x5000 a table of code lengths 8. -/
def stRay : State :=
  { stTens with
    mem := Sparse.setAll 0 stTens.mem (writesFrom (hbmKey false 0x4000) (wordsBytes [0x10000, 0x11000, 0x8000, 0x9000, 1, 0, 0, 0])
      ++ (List.range 256).map fun i => (hbmKey false 0x5000 + i, 8))
    waves := (stW fun w => { w with regs := [(kKey 0, 0x4000), (kKey 62, 0x5000)] }).waves }

theorem test_meets_RayAndTableIssue :
    meets stRay (fun c =>
      let key := fun va i => (stRay.locOf c .load (va + i)).key
      let ws := (List.range 8).map fun j => BitVec.ofNat 64 (leNat ((List.range 8).map fun i => stRay.byte (key 0x4000 (8 * j + i))))
      decide (c.w.cpc < 63) && c.regCheck [] [(.k 0, 2)] == none && (c.w.read64 (.k 0) 0).toNat == 0x4000 && (stRay.core c.b.core).l1 == [] &&
      clear stRay c false false .load ((lanesOf c.act).map fun l => (l, 0x4000)) 64 && (List.range 64).all (fun i => decide (key 0x4000 i < windowTop)) &&
      !rayDescBad ws && 64 * bits (ws.getD 4 0) 31 0 == 64 && stRay.rangeOk 0x8000 64 && stRay.rangeOk 0x9000 64 &&
      ready stRay c .ray [⟨c.b.core, c.bi, false, false, 0x8000, 64⟩, ⟨c.b.core, c.bi, true, false, 0x9000, 64⟩] (some 63) &&
      ready stRay c .mat [⟨c.b.core, c.bi, false, false, 0x8000, 64⟩, ⟨c.b.core, c.bi, true, false, 0x9000, 64⟩] (some 63)) = true ∧
    meets stRay (fun c =>
      let key := fun va i => (stRay.locOf c .load (va + i)).key
      (c.w.read64 (.k 62) 0).toNat == 0x5000 && clear stRay c false false .load ((lanesOf c.act).map fun l => (l, 0x5000)) 256 &&
      c.g.vm == 0 && tableOk ((List.range 256).map fun i => (stRay.byte (key 0x5000 i)).toNat) &&
      ready stRay c .ctu [⟨c.b.core, c.bi, false, false, 0x5000, 256⟩] (some 63)) = true ∧
    meets { stRay with grids := (stG fun g => { g with vm := 16 }).grids } (fun c => c.g.vm != 0 && c.act != 0) = true ∧
    stRay.poison = [] ∧ stRay.hbmErr = [] ∧ stRay.cmp.stored = [] := by decide +kernel

/-! ## Statements about queues, spawning, the Landing, textures -/

/-- Only lane 31 runs; the hub has cached the first page. -/
def stOne : State :=
  { stW (fun w => { w with exited := 0x7FFFFFFF, regs := [(kKey 0, 255)] }) with
    x := { st.x with tlb := st.x.tlb ++ [⟨65, 0, 0, false, false, 0, 21, 0, false, false, false, false, true, true, true⟩] }
    queues := [(255, { v := true, recsz := 1, log2n := 4, base := 0x8000, tail := 3, commit := 3, head := 2 })] }

theorem test_meets_QueueAndSpawn :
    meets stOne (fun c => c.act == 1#32 <<< 31 && decide (c.w.ldc < 63) && (c.w.read (.k 0) 0).toNat == 255 &&
      c.regCheck [(.v 31, 1)] [(.k 0, 1), (.v 28, 4)] == none && c.regCheck [(.v 31, 1), (.v 24, 4)] [(.k 0, 1)] == none &&
      (let x := stOne.queue c.g.vm 255
       x.valid && x.recsz == 1 && decide ((x.tail - x.head).toNat < 2 ^ x.log2n) && x.commit != x.head &&
        (x.slotVas x.tail).all (fun va => decide (va < landingVa)) &&
        (match stOne.placeAll 65 x.cls ⟨c.g.vm, x.asid, false, false⟩ .engWrite (x.slotVas x.tail) with
          | .ok .. => true
          | _ => false) &&
        (match stOne.placeAll 65 x.cls ⟨c.g.vm, x.asid, false, false⟩ .engRead (x.slotVas x.head) with
          | .ok .. => true
          | _ => false))) = true ∧
    (let x : QueueSt := { v := true, recsz := 1, log2n := 4, tail := 16, commit := 16, head := 0 }
     x.valid = true ∧ 2 ^ x.log2n ≤ (x.tail - x.head).toNat ∧ ({ x with head := 16 } : QueueSt).commit = ({ x with head := 16 } : QueueSt).head) := by
  decide +kernel

/-- A grid whose third berth descriptor names 0x500, with a berth of 31 lanes open, or all 32 berths in use. -/
def stSpawn (bs : List (Nat × Berth)) : State :=
  { stOne with grids := (stG fun g => { g with record := List.replicate 28 0 ++ [0x500, 0] }).grids
               waves := (stW fun w => { w with exited := 0x7FFFFFFF, regs := [(kKey 62, 0x500)] }).waves
               cores := [(0, { berths := bs })] }
def berth (n : Nat) : Berth := { grid := 0, entry := 0x500, desc := 3, lanes := List.replicate n [], since := 0 }

theorem test_meets_SpawnInstruction :
    meets (stSpawn [(0, { berth 1 with sailed := true }), (31, berth 31)]) (fun c => c.act == 1#32 <<< 31 &&
      c.regCheck [(.v 31, 1)] [(.k 62, 2), (.v 28, 4)] == none && c.w.read64 (.k 62) 0 == 0x500 &&
      berthDesc c.g.record 0x500 == some 3 && ((stSpawn [(0, { berth 1 with sailed := true }), (31, berth 31)]).core 0).openBerth 0 0x500 == some (31, berth 31) &&
      berthDesc c.g.record 0x504 == none) = true ∧
    (let s := stSpawn [(0, { berth 1 with sailed := true })]
     (s.core 0).openBerth 0 0x500 = none ∧ berthAt s 0 1 = none ∧ ∀ j < 1, berthAt s 0 j ≠ none) ∧
    (let s := stSpawn ((List.range 32).map fun i => (i, { berth 1 with sailed := true }))
     (s.core 0).openBerth 0 0x500 = none ∧ ∀ i < 32, berthAt s 0 i ≠ none) := by decide +kernel

/-- Object 1 of VM 0 has its entry at 0x4040, generation 5; the Landing is on. -/
def stLand (en : Bool) : State :=
  { stOne with
    mem := Sparse.setAll 0 stOne.mem (writesFrom (hbmKey false 0x4040) (wordsBytes [0x8005000000000000, 0, 0, 0]))
    waves := (stW fun w => { w with exited := 0x7FFFFFFF, regs := [(kKey 1, 1), (kKey 2, 1), (kKey 4, 16)] }).waves
    lreg := { stOne.lreg with en := en, size := 1, objbase := [(0, 0x4000)], objctl := [(0, 2)] } }
/-- The key of object 1, and the first entry of its set. -/
def key1 : Nat := 2 ^ 32
/-- The set of the key holds an entry in way 15. -/
def stTag (e : TagEntry) : State :=
  { stLand true with land := { tags := [(keySet key1 + 15, e)] }
                     waves := (stW fun w => { w with exited := 0x7FFFFFFF, regs := [(kKey 1, 1), (kKey 2, .ofNat 32 ((keySet key1 + 15) * 1024 + 7 * 4)), (kKey 4, 16)] }).waves }

/-- `ObjectsPass`, to compute. -/
def objsPass (s : State) (c : Ctx) (acc : Access) (objs : List Nat) : Bool :=
  s.land.objs == [] && c.w.cancel == none && objs.all fun o => decide (o < s.objCount c.g.vm ∧ s.objVa c.g.vm o < landingVa) &&
    (s.lookup (stallUnit c.b.core acc) (s.objSpace c.g.vm) acc (s.objVa c.g.vm o)) != none && objExists (entryWords s c acc o)
/-- No entry of the first five ways or of the last is expired, and the others are empty. -/
def setFresh (s : State) (i : Nat) : Bool := (List.range 16).all fun j => !s.expired (s.tagAt (i / 16 * 16 + j))

/-- A current entry, and one in flight. -/
def current : TagEntry := { state := 2, key := key1, gen := 5, pay := 9, fser := 7 }
def inFlight : TagEntry := { state := 1, key := key1, gen := 5, fpay := 9, fser := 7 }

theorem test_meets_LandingRequests :
    meets (stLand false) (fun c => c.act == 1#32 <<< 31 && decide (c.w.ldc < 63) && (c.w.read64 (.k 0) 31).toNat == key1 && keyObj key1 == 1 &&
      objsPass (stLand false) c .engRead [1] && (stLand false).landOff && c.regCheck [(.v 28, 4)] [(.k 0, 2)] == none &&
      c.regCheck [(.v 31, 1)] [(.k 0, 2)] == none) = true ∧
    meets (stTag current) (fun c => objsPass (stTag current) c .engRead [1] && !(stTag current).landOff && setFresh (stTag current) (keySet key1) &&
      (stTag current).chooseEntry c.g.vm key1 == some (keySet key1 + 15, true) && bits ((entryWords (stTag current) c .engRead 1).getD 0 0) 55 48 == 5 &&
      c.regCheck [(.v 28, 4)] [(.k 2, 1), (.k 4, 1)] == none &&
      (c.w.read (.k 2) 31).toNat / 2 ^ 10 == keySet key1 + 15 && (c.w.read (.k 2) 31).toNat / 4 % 256 == 7 && (stTag current).sees c.g.vm current) = true ∧
    meets (stTag inFlight) (fun c => setFresh (stTag inFlight) (keySet key1) && (stTag inFlight).tagAt (keySet key1 + 15) == inFlight &&
      (stTag inFlight).sees c.g.vm inFlight && c.w.read (.k 4) 0 != 0) = true := by decide +kernel

/-- The same Landing with nothing in its tags; object 1 names queue 255, whose records have two lines; PROVWIN is as given. -/
def stProv (n : Nat) : State :=
  { stLand true with
    mem := Sparse.setAll 0 stOne.mem (writesFrom (hbmKey false 0x4040) (wordsBytes [0x8005000000000000, 0, 0xFF00000000000000, 0]))
    lreg := { (stLand true).lreg with provwin := n }
    queues := [(255, { v := true, recsz := 2, log2n := 4, base := 0x8000, tail := 0xFFFFFFFF, commit := 0xFFFFFFFF, head := 0xFFFFFFFF })] }

/-- What row 13 of R86 asks of way 0 of the key's set. -/
def provides (n : Nat) : Bool :=
  let s := stProv n
  meets s fun c =>
    let x := s.queue c.g.vm 255
    let s1 := (s.objRead c.b.cls.val (dieOfObj 1)
      (((s.lookup (stallUnit c.b.core .engRead) (s.objSpace c.g.vm) .engRead (s.objVa c.g.vm 1)).map Loc.key).getD 0)).1
    objsPass s c .engRead [1] && c.act == 1#32 <<< 31 && (c.w.read64 (.k 0) 31).toNat == key1 && !s.landOff && setFresh s (keySet key1) &&
      s.chooseEntry c.g.vm key1 == none && (s.tagAt (keySet key1)).state == 0 && keySet key1 % 16 == 0 &&
      c.regCheck [(.v 31, 1)] [(.k 0, 2)] == none && bits ((entryWords s c .engRead 1).getD 2 0) 63 56 == 255 &&
      x.valid && x.recsz == 2 && decide ((x.tail - x.head).toNat < 2 ^ x.log2n) && (x.slotVas x.tail).all (fun va => decide (va < landingVa)) &&
      (match s1.placeAll (64 + 255 % 2) x.cls ⟨c.g.vm, x.asid, false, false⟩ .engWrite (x.slotVas x.tail) with
        | .ok .. => true
        | _ => false) && (s1.freeBlockOf (keySet key1 / 2 ^ 19) (blockLines 1)).isSome

theorem test_meets_LandingRequests_provisional : provides 2 = true ∧ provides 0 = true := by decide +kernel

theorem test_meets_LandingUpdates :
    meets (stTag inFlight) (fun c => decide (c.w.ldc < 63 ∧ c.w.stc < 63) && c.act == 1#32 <<< 31 && c.regCheck [(.v 31, 1)] [(.k 2, 1)] == none &&
      ((stTag inFlight).core c.b.core).l1 == [] && !(stTag inFlight).landOff && setFresh (stTag inFlight) (keySet key1) && inFlight.owner == c.g.vm) = true ∧
    (stLand false).landOff = true ∧
    meets (stLand true) (fun c => c.regCheck [] [(.k 1, 1)] == none && (c.w.read (.k 1) 0).toNat == 1 && objsPass (stLand true) c .engRead [1] &&
      (let at_ := (stLand true).lookup (stallUnit c.b.core .engWrite) ((stLand true).objSpace c.g.vm) .engWrite ((stLand true).objVa c.g.vm 1)
       let home := (at_.map Loc.key).getD 0
       at_ != none && !(stLand true).secPoison home && home % 64 == 0 && decide (home + 8 < windowTop)) &&
      c.w.spec == none && (stLand true).hbmErr == [] && (stLand true).land.quar == [] &&
      decide ((stLand true).objCount c.g.vm ≤ (c.w.read (.k 4) 0).toNat) && (stLand true).lreg.tickvm.getLsbD c.g.vm) = true ∧
    meets (stLand false) (fun c => objsPass (stLand false) c .engRead [1] && !(stLand false).heapInForce) = true ∧
    (stLand false).cmp.stored = [] ∧
    -- a store window of one block, which the entry is not in
    (let s := { stLand false with waves := (stLand false).waves.map fun w => { w with spec := some [(0x8000, 256)] } }
     meets s fun c => objsPass s c .engRead [1] && c.act != 0 && c.regCheck [] [(.k 1, 1)] == none && (c.w.read (.k 1) 0).toNat == 1 &&
       (s.lookup (stallUnit c.b.core .engWrite) (s.objSpace c.g.vm) .engWrite (s.objVa c.g.vm 1)) != none &&
       c.w.spec == some [(0x8000, 256)] && decide (¬(0x8000 ≤ s.objVa c.g.vm 1 ∧ s.objVa c.g.vm 1 < 0x8000 + 256))) = true ∧
    meets { stLand true with grids := (stG fun g => { g with vm := 16 }).grids } (fun c => !(stLand true).lreg.tickvm.getLsbD c.g.vm) = true := by
  decide +kernel

/-- At 0x4000 a descriptor of a 2 by 2 texture of format 1 at 0x8000; at 0x5000 one of no format. -/
def stTex : State :=
  { stOne with
    mem := Sparse.setAll 0 stOne.mem (writesFrom (hbmKey false 0x4000) (wordsBytes [0x8000, 0x0001000100001002, 0, 0]) ++ writesFrom (hbmKey false 0x5000) (wordsBytes [0, 0xF002, 0, 0]))
    waves := (stW fun w => { w with exited := 0x7FFFFFFF, regs := [(kKey 0, 0x4000), (kKey 62, 0x5000)] }).waves }

theorem test_meets_TextureAndVertexInstructions :
    meets stTex (fun c => c.act != 0 && decide (c.w.ldc < 63) && !stTex.cmp.en && stTex.cmp.stored == [] && !c.b.svc &&
      (let at_ := fun va => (span va 32).map fun x => stTex.byte (stTex.locOf c .load x).key
       !texDescBad (at_ 0x4000) && texDescBad (at_ 0x5000) &&
        [0x4000, 0x5000].all fun va => clear stTex c false false .load ((lanesOf c.act).map fun l => (l, va)) 32 &&
          (List.range 32).all fun i => decide ((stTex.locOf c .load (va + i)).key < windowTop)) &&
      (stTex.core c.b.core).l1 == [] && c.regCheck [(.v 28, 4)] [(.k 0, 2), (.v 27, 1)] == none &&
      c.regCheck [(.v 28, 4)] [(.k 62, 2), (.v 24, 4), (.v 20, 4)] == none &&
      (let t0 := texDescOf ((span 0x4000 32).map fun x => stTex.byte (stTex.locOf c .load x).key)
       let fp := t0.footprint false (groupOf c (.v 24) 31) (groupOf c (.v 20) 31)
       let reads := ((((t0.taps fp (groupOf c (.v 24) 31)).flatMap fun ts => ts.flatMap Tap.texels).filterMap id).eraseDups).map fun p => (31, p)
       reads != [] && clear stTex c false false .load reads t0.texel)) = true ∧
    meets { stTex with grids := (stG fun g => { g with record := [0x0110000000000000] }).grids } (fun c => recKind c.g.record == 1 && !c.w.emitted &&
      c.regCheck [] [(.v 28, 4), (.v 27, 1), (.k 63, 1)] == none && decide (c.b.grid < stTex.grids.length)) = true ∧
    meets stTex (fun c => recKind c.g.record != 1) = true := by decide +kernel

/-! ## Statements about events -/

/-- A counted load of lanes 0 and 31. -/
def cnt : Counted := { ctr := .ld, lanes := 0x80000001, writes := [⟨0, 0, 5, false⟩, ⟨31, flagKey 3 31, 1, false⟩] }
/-- An operation with two rays: one parked, one to look up again. -/
def rayOp : EngOp := { engine := 19, instr := .trace hd (.k 0) 63, block := 0, wave := 0, core := 0, tag := some 63,
                       rays := [{ idx := 0, slot := 4095, lifeR := .parked, entry := 7 }, { idx := 1, slot := 0, lifeR := .again }] }

theorem test_meets_WaitEvents :
    (let s := stW fun w => { w with ldc := 1, counted := [(9, cnt)] }
     0 < s.waves.length ∧ (s.wave 0).counted.find? (fun e => e.1 == 9) = some (9, cnt) ∧ cnt.op = none ∧ cnt.discarded = false ∧ cnt.moved = false ∧
      (0x80000001 : LaneMask) &&& cnt.lanes = 0x80000001 ∧ (1 : LaneMask) &&& cnt.lanes = 1 ∧ (cnt.writes.map PendWrite.key).Nodup ∧ cnt.posts = []) ∧
    (let s := { stB (fun b => { b with cls := 3 }) with waves := (stW fun w => { w with ldc := 1, counted := [(9, { cnt with moved := true })] }).waves
                                                        tt := { st.tt with force := List.replicate 12 0xFFFFFFFFFFFFFFFF } }
     (s.wave 0).counted.find? (fun e => e.1 == 9) = some (9, { cnt with moved := true }) ∧ s.slotFor 1 (s.block (s.wave 0).block).cls.val = true ∧
      s.slotFor 1 0 = false) ∧
    (State.unwritten { st with queues := [(5, { tail := 0, commit := 0xFFFFFFFF, pend := [[]] })] } (5, 0xFFFFFFFF) = true) ∧
    (let n : Counted := { cnt with parked := [⟨31, 0, 7, [], 0⟩] }
     let s := stW fun w => { w with counted := [(9, n)] }
     (s.wave 0).counted = [(9, n)] ∧ (31 : Nat) < 32 ∧ 0 ≤ s.clk) ∧
    (let s := { st with ops := [rayOp], clk := 0x0400 * 1024 }
     s.rayAt 0 0 = some (rayOp, rayOp.rays.getD 0 { idx := 0, slot := 0 }) ∧ s.rayAt 0 1 = some (rayOp, rayOp.rays.getD 1 { idx := 0, slot := 0 }) ∧
      s.lreg.raytmo ≠ 0 ∧ 0 + s.lreg.raytmo * 1024 ≤ s.clk) := by decide +kernel

/-- A page table of VM 0 and ASID 0 in HBM: root at 2^19, PT4 to PT1 at the next pages, a 2 MB leaf at 0. -/
def stWalk (leaf : DWord) : State :=
  { stW (fun w => { w with stalls := [⟨false, ⟨0, 0, false, false⟩, 0, .load, none⟩] }) with
    mem := [0x80000, 0x81000, 0x82000, 0x83000].foldl (fun m a =>
      Sparse.setAll 0 m (writesFrom (hbmKey false a) (wordsBytes [.ofNat 64 ((a + 0x1000) * 256 + 1)]))) (Sparse.setAll 0 [] (writesFrom (hbmKey false 0x84000) (wordsBytes [leaf])))
    x := { vmroot := [(0, 0x8000001)] } }

/-- The page that the wave of `stWalk` waits for. -/
def page0 : Stall := ⟨false, ⟨0, 0, false, false⟩, 0, .load, none⟩

theorem test_meets_TranslationEvents_next (e : DWord) : (stWalk e).walkNext 0 = some page0 := by
  have hs : ((stWalk e).wave 0).stalls = [page0] := rfl
  have ht : (stWalk e).faultedPages ((stWalk e).block ((stWalk e).wave 0).block).core = [] := rfl
  have h : ((stWalk e).wave 0).stalls.filter (fun st => st.fault.isNone &&
      (stWalk e).tracked ((stWalk e).block ((stWalk e).wave 0).block).core st) = [page0] := by
    rw [hs]; simp [State.tracked, ht, page0]
  simp only [State.walkNext, h, List.length_singleton, Nat.mod_one]
  rfl

theorem test_meets_TranslationEvents :
    ({ st.x with invBusy := true, invCmd := invWord 1 16 0 0 } : Xlat).invBusy = true ∧
    (∃ r : PriReq, [r][0]? = some r ∧ r.failed = false) ∧
    (let s := stWalk 0x1B
     (s.wave 0).life = .running ∧ 0 < s.waves.length ∧
      (s.block (s.wave 0).block).life = .resident ∧ (s.block (s.wave 0).block).halted = false ∧
      s.walk (tlbBehind (stallUnit (s.block (s.wave 0).block).core .load)) ⟨0, 0, false, false⟩ .load 0 = .leaf (hbmKey false 0x84000) 0x1B 21 ∧
      (0x1B : DWord).getLsbD 12 = false ∧ s.slotFor 1 (s.block (s.wave 0).block).cls.val = true) ∧
    (let s := stWalk 0x101B
     s.walk 0 ⟨0, 0, false, false⟩ .load 0 = .leaf (hbmKey false 0x84000) 0x101B 21 ∧
      (0x101B : DWord).getLsbD 12 = true ∧ s.x.hostPages = [] ∧ s.x.pri = []) ∧
    (let s := stWalk 0
     s.walk 0 ⟨0, 0, false, false⟩ .load 0 = .fault Kind.notPresent 0x84000 false ∧
      s.x.faults = []) := by
  refine ⟨rfl, ⟨⟨5, false⟩, rfl, rfl⟩, ?_, ?_, ?_⟩ <;> decide +kernel

/-- A fault record, and a state in which a wave waits on it for an access; its VM has a handler. -/
def rec0 (id : Option Word) : FaultRec := ⟨3, id, 0, ⟨0, 0, false, false⟩, 0x123, 1, .load, false, 0, 0, 0, 0⟩
def stFault (id : Option Word) (acc : Access) : State :=
  { State.reset with waves := [{ stalls := [⟨true, ⟨0, 0, false, false⟩, 0x123, acc, some 3⟩], slotB := { valid := true, path := { mask := 0x10 } } }]
                     blocks := [{ waves := [0] }], grids := [{}], svcImg := [(0, 2 ^ 63)], x := { faults := [rec0 id], fqLog2 := 6 } }
/-- The same with a block whose Window Ferry, or whose save, waits on it instead. -/
def stFerryFault : State := { stFault (some 9) .load with waves := [{ ferryFault := some 3, fwait := true }] }
def stSaveFault : State := { stFault (some 9) .load with waves := [{}], blocks := [{ waves := [0], saveFault := some 3 }] }

theorem test_meets_FaultAndErrorRecords :
    (let s := stFault none .load
     s.x.faults.find? (fun q => q.id.isNone) = some (rec0 none) ∧ s.x.posting = true ∧ s.ringPresent = true ∧
      ringFull s.x.fqLog2 s.x.fqHead s.x.fqTail = false ∧ s.heapInForce = false ∧ s.cmp.stored = []) ∧
    (let s := stFault (some 9) .load
     s.faultOf 9 = some (rec0 (some 9)) ∧ (∀ q ∈ s.x.faults, q.id ≠ some 8) ∧ (∀ w ∈ s.waves, w.ferryFault ≠ some (rec0 (some 9)).serial) ∧
      (∀ b ∈ s.blocks, b.saveFault ≠ some (rec0 (some 9)).serial) ∧ (∀ g ∈ s.grids, ∀ f ∈ g.rasterFault, f.2 ≠ (rec0 (some 9)).serial) ∧
      ∀ w ∈ s.waves, ∀ st ∈ w.stalls, st.fault = some (rec0 (some 9)).serial → st.access ≠ .fetch) ∧
    (let s := stFault (some 9) .fetch
     s.faultOf 9 = some (rec0 (some 9)) ∧ (∀ w ∈ s.waves, w.ferryFault ≠ some 3) ∧ (∀ b ∈ s.blocks, b.saveFault ≠ some 3) ∧
      (∀ g ∈ s.grids, ∀ f ∈ g.rasterFault, f.2 ≠ 3) ∧ 0 < s.waves.length ∧
      (s.wave 0).stalls = [⟨true, ⟨0, 0, false, false⟩, 0x123, .fetch, some (rec0 (some 9)).serial⟩] ∧
      s.waves = [s.wave 0] ∧ (s.block (s.wave 0).block).svc = false ∧
      (Sparse.get 0 s.svcImg (s.grid (s.block (s.wave 0).block).grid).vm : DWord).getLsbD 63 = true) ∧
    (let s := stFerryFault
     s.faultOf 9 = some (rec0 (some 9)) ∧ (∀ w ∈ s.waves, w.stalls = []) ∧ s.svc = [] ∧ 0 < s.blocks.length ∧
      (s.block 0).life = .resident ∧ (s.block 0).svc = false ∧ (s.wave 0).block = 0 ∧ (s.wave 0).ferryFault = some (rec0 (some 9)).serial) ∧
    (let s := stSaveFault
     s.faultOf 9 = some (rec0 (some 9)) ∧ (∀ w ∈ s.waves, w.stalls = []) ∧ s.svc = [] ∧ (s.block 0).life = .resident ∧ (s.block 0).svc = false ∧
      (s.block 0).saveFault = some (rec0 (some 9)).serial) ∧
    (let s := { State.reset with errors := [⟨0, 1, 3, 0, 0, 16, 0, 1⟩], err := { State.reset.err with log2n := 0 } }
     s.errors = ⟨0, 1, 3, 0, 0, 16, 0, 1⟩ :: [] ∧ s.err.enabled = false) ∧
    (let s := { State.reset with errors := [⟨0, 3, 3, 0, 0, 16, 0, 1⟩], err := { log2n := 16, tail := 0xFFFF } }
     s.errors = ⟨0, 3, 3, 0, 0, 16, 0, 1⟩ :: [] ∧ s.err.enabled = true ∧ s.regionPresent s.err.base (32 * 2 ^ s.err.log2n) = true ∧
      ringFull s.err.log2n s.err.head s.err.tail = true) ∧
    (let s := { State.reset with errors := [⟨0, 0x10, 3, 0, 0, 16, 0, 1⟩], err := { log2n := 16, head := 1, tail := 0xFFFF } }
     s.errors = ⟨0, 0x10, 3, 0, 0, 16, 0, 1⟩ :: [] ∧ s.err.enabled = true ∧ s.regionPresent s.err.base (32 * 2 ^ s.err.log2n) = true ∧
      ringFull s.err.log2n s.err.head s.err.tail = false ∧ s.heapInForce = false ∧ s.cmp.stored = []) ∧
    (let s := { State.reset with clk := 1050000000, hbm := [(511, { ce := 2 })] }
     s.err.aggAt + 1050000000 ≤ s.clk ∧ ∃ h ∈ s.hbm, h.2.ce ≠ 0) := by
  refine ⟨?_, ?_, ?_, ?_, ?_, ?_, ?_, ?_, ⟨?_, (511, { ce := 2 }), ?_, ?_⟩⟩ <;> decide +kernel

/-- A line of an L2 home with one clean and one dirty sector, a clean line of an L1, words and entries that are poisoned. -/
theorem test_meets_SoftErrors :
    (let s := { st with soft := { upsets := [(0, .register 0 (ringKey 63 31))] } }
     s.soft.upsets = [(0, .register 0 (ringKey 63 31))] ∧ s.off = false ∧ 0 < s.waves.length ∧ (s.wave 0).block < s.blocks.length ∧
      (s.block (s.wave 0).block).life = .resident ∧ (s.wave 0).life ≠ .ended ∧ 63 < (s.wave 0).ringN) ∧
    ({ st with soft := { upsets := [(1, .correctedDie 0)] } } : State).soft.upsets = [(0 + 1, .correctedDie 0)] ∧
    ({ st with off := true } : State).off = true ∧
    (let s := stB fun b => { b with scrUnits := 1 }
     (s.block 0).life = .resident ∧ 4 * 1023 < 4096 * (s.block 0).scrUnits) ∧
    (let e : L2Line := { loc := 256, way := 3, cls := 0, valid := 1, dirty := 1#256 <<< 255 }
     let s := { st with l2 := { lines := [e] } }
     s.l2.lines.find? (fun x => x.loc == 511 / 256 * 256) = some e ∧ e.secDirty (511 / 64 % 4) = true ∧ e.valid.getLsbD (256 / 64 % 4) = true ∧
      e.secDirty (256 / 64 % 4) = false) ∧
    (let ln : L1Line := { loc := 256, valid := 8, poison := 0, dirty := 0, data := 0 }
     let s := { st with cores := [(159, { l1 := [ln] })] }
     (s.core 159).line 511 = some ln ∧ ln.valid.getLsbD (511 / 64 % 4) = true ∧ ln.secDirty (511 / 64 % 4) = false) ∧
    smallPoison { poison := [(flagKey 3 31, true)] } {} 0x80000000 (.f 3) = some 0x80000000 ∧
    smallPoison { poison := [(flagKey 3 31, true)] } {} 1 (.f 3) = none ∧
    ({ poison := [(jKey 7, true)] } : Wave).poisoned (jKey 7) = true ∧
    Sparse.get false ({ tensPoison := [(63, true)] } : Block).tensPoison 63 = true := by decide +kernel

/-- R193: a NOP under a guard whose flag is poisoned in lane 31 traps with REG_POISON and that lane's mask. -/
theorem test_step_poisoned_guard :
    goes (step { stHurt with svcImg := [(0, 2 ^ 63)] }) (fun t => (t.wave 0).trap.any fun r => r.cause == 7 && r.mask == 0x80000000) = true := by
  decide +kernel

/-- R71: an uncorrectable error in a dirty L2 sector poisons it and logs UE_SRAM, and the sector is gone from the L2. -/
theorem test_step_l2_error :
    (let s := { State.reset with l2 := { lines := [{ loc := 256, way := 3, cls := 0, valid := 15, dirty := 1 }] }, soft := { upsets := [(0, .l2Sector 256)] } }
     let t := s.strike
     t.secPoison 256 && !t.secPoison 320 && t.errors.map ErrRec.event == [0x11] &&
      t.l2.lines.map L2Line.valid == [14] && t.l2.lines.map L2Line.dirty == [0]) = true := by decide +kernel

/-- R109: a patrol scrub that finds an uncorrectable error in the first sector of a stored block poisons the whole line. -/
theorem test_event_scrub_compressed :
    goes (exec (.patrolScrub 0 0 2) { State.reset with cmp := { stored := [(0, List.replicate 64 0)] }, clk := 2 }) (fun t =>
      t.secPoison 0 && t.secPoison 192 && !t.secPoison 256) = true := by decide +kernel

/-- The last granule of die 7. -/
def lastGranule : Nat := 7 * 2 ^ 37 + 32 * (2 ^ 32 - 1)

theorem test_meets_FabricEvents :
    (let s := { State.reset with clk := 4098 }
     Sparse.get false s.l2.idle 31 = false ∧ Sparse.get 0 s.l2.last 31 + 4095 ≤ s.clk) ∧
    -- a flit arrives while one leaves its class buffer, another on a link whose replay buffer is full but which is sent again
    (let s := { State.reset with clk := 4098, noc := [(3, { held := 1, leftAt := 4090, replay := 63 })] }
     s.linkOf 0 3 = { held := 1, leftAt := 4090, replay := 63 } ∧ s.replayed 0 < 64 ∧ s.slotFor 0 3 = true ∧ 1 ≤ s.slotsSince 3 4090 s.clk) ∧
    (let s := { State.reset with clk := 4098, noc := [(3, { held := 8, replay := 64, resend := 64, retry := true })] }
     s.replayed 0 = 64 ∧ (s.linkOf 0 3).resend ≠ 0 ∧ (s.linkOf 0 3).retry = true) ∧
    (let s := { State.reset with clk := 4098 }
     s.slotFor 1 3 = true ∧ s.present lastGranule = true ∧ s.granuleErr lastGranule = 0 ∧ s.shielded lastGranule = false ∧
      s.blockOf (lastGranule / 256) = []) ∧
    (let s := { State.reset with clk := 4098, hbmErr := [(lastGranule / 32, 1)] }
     s.granuleErr lastGranule = 1) ∧
    (let s := { State.reset with clk := 4098, hbmErr := [(lastGranule / 32, 2)]
                                 l2 := { lines := [{ loc := lastGranule / 256 * 256, way := 0, cls := 3, valid := 8, dirty := 0 }] } }
     s.granuleErr lastGranule = 2 ∧ s.shielded lastGranule = true) ∧
    (let s := { State.reset with cmp := { stored := [(0, List.replicate 65 0)], busy := true } }
     127 % 256 / 64 * 64 < (s.blockOf (127 / 256)).length ∧ s.shielded 127 = false ∧ s.blockOf (256 / 256) = [] ∧ s.cmp.busy = true) ∧
    State.reset.chRetired.contains (7, 63) = false ∧
    ({ since := 63, pend := true : TtSt } : TtSt).since / 64 < 64 / 64 := by decide +kernel

/-! ### Engines, the Landing, queues -/

/-- A COPY of 16 bytes in the scratchpad, and operations of other engines. -/
def copyOp : EngOp := { engine := 1, instr := .copy hd true true (.k 0) (.k 1) (.k 2) 63, block := 0, wave := 0, core := 0, tag := some 63,
                        vals := [0xFFF0, 0, 16] }
def stOps (o : EngOp) : State :=
  { stEng with ops := [o], waves := (stW fun w => { w with cpc := 1, counted := [(0, { ctr := .cp, lanes := 1, op := some 0 })] }).waves
               cores := [(0, { locks := [some ⟨true, 2, 0, 63, 0, 0, 0xFFF, 0xFFF, 0⟩] })] }
/-- A COPYM that has its bytes, a TABLD, a pass of the matrix engine, a COLL that waits. -/
def copymOp : EngOp := { copyOp with instr := .copym hd (.k 0) (.k 1) (.k 2) 63 1 0, recv := [(0, 0)], data := List.replicate 16 (7, false) }
def tabOp : EngOp := { copyOp with engine := 18, instr := .tabld hd (.k 0) 63 15, vals := List.replicate 256 8 }
def matOp : EngOp := { copyOp with engine := 16, instr := .tzero hd (.t 0) }
def collOp : EngOp := { copyOp with engine := 28, instr := .coll hd .f32 .allsum true true (.k 0) (.k 1) (.k 2) 63 63 }

theorem test_meets_EngineEvents :
    (let s := stOps copyOp
     s.opRuns copyOp = true ∧ 0 < s.blocks.length ∧ (s.block 0).life = .resident ∧
      (s.wave 0).counted.find? (fun e => e.2.op == some 0) = some (0, { ctr := .cp, lanes := 1, op := some 0 }) ∧
      copySpan (copyOp.val 0) (copyOp.val 1) (copyOp.val 2) copyOp.done = (0, 16, 1) ∧
      s.opRuns { { copyOp with failed := some ⟨1, 1, 0, 0⟩ } with failed := none } = true) ∧
    (let s := { stOps { copyOp with failed := some ⟨1, 1, 0, 0⟩ } with tt := { st.tt with force := List.replicate 12 0 } }
     s.ops[0]? = some { copyOp with failed := some ⟨1, 1, 0, 0⟩ } ∧ s.slotFor 1 (s.opCls copyOp) = true ∧ copyOp.engine ≤ 4) ∧
    -- two lines of the destination, the first to be done
    (let o := { copyOp with vals := [0xF0, 0x1000, 32] }
     (stOps o).opRuns o = true ∧ copySpan (o.val 0) (o.val 1) (o.val 2) 0 = (0, 16, 2) ∧ copySpan (o.val 0) (o.val 1) (o.val 2) 1 = (16, 16, 2)) := by decide +kernel

theorem test_meets_EngineEvents_deliver :
    (let s := { stOps copymOp with blocks := [{ (stEng.block 0) with bb := [{ expect := 1, members := 1, e := 1 }] }] }
     copymOp.recv[0]? = some (0, 0) ∧ s.opRuns copymOp = true ∧ copymOp.arrived.getLsbD 0 = false ∧ copymOp.data ≠ [] ∧ copymOp.data.length = copymOp.val 2 ∧ 0 < s.blocks.length ∧
      (s.block 0).life = .resident ∧ ((s.block 0).bb.getD 0 {}).expect ≠ 0) ∧
    ((stOps tabOp).tableFor 2247).map Prod.fst = some 0 ∧ 2247 < expanderCount ∧
    (tabOf tabOp).any (fun x => !(stOps tabOp).superseded 0 2247 x) = true ∧
    (let s := { stOps tabOp with ops := [tabOp, { tabOp with slots := [2247] }] }
     (s.tableFor 2247).map Prod.fst = some 0 ∧ (tabOf tabOp).any (fun x => s.superseded 0 2247 x) = true) := by decide +kernel

theorem test_meets_EngineEvents_tables :
    (let r : Resv := ⟨15, 0, 0, 0, 0, 0, false, none, false, 0, 1, 1⟩
     let s := { stOps matOp with resv := [(0, [r])], clk := 65536 }
     s.grantee 0 = some r ∧ (s.resvOf 0).find? (fun x => x.place == 15) = some r ∧ r.promo = false ∧ r.granted = none ∧
      r.posted + 65536 ≤ s.clk) ∧
    (let s := { stOps collOp with coll := { groups := [(63, (0x8081000000000000, 1))] }, clk := 1024 }
     s.ops = [collOp] ∧ collOf collOp = some (.f32, .allsum, true, true, 63) ∧ collOp.life = .running ∧ collOp.arrived = 0 ∧
      collOp.failed = none ∧ collOp.core < 160 ∧ (s.collGroup 63).1.getLsbD (48 + dieOf collOp.core) = true ∧
      (7 ≠ dieOf collOp.core ∧ (s.collGroup 63).1.getLsbD (48 + 7) = true) ∧ bits (s.collGroup 63).2 31 0 ≠ 0 ∧
      collOp.since + bits (s.collGroup 63).2 31 0 * 1024 ≤ s.clk) := by decide +kernel

theorem test_meets_LandingAndQueueEvents :
    (0x8100000000000000 : DWord).getLsbD 63 = true ∧ State.reset.heapFits 1 0 = true ∧ State.reset.heapFits 65 0 = false ∧
    ({ onpend := true, size := 1 } : LandRegs).onpend = true ∧ ({ offpend := true } : LandRegs).offpend = true ∧
    (let s := { State.reset with queues := [(16 * 256 + 255, { pend := [[(0x1000, 1), (0x1001, 2)]] })] }
     (s.queue 16 255).pend = [[(0x1000, 1), (0x1001, 2)]] ∧ (∀ kv ∈ [((0x1000, 1) : Nat × Byte), (0x1001, 2)], kv.1 < windowTop) ∧
      s.heapInForce = false ∧ s.cmp.stored = []) := by decide +kernel

/-! ### Launches and placement -/

/-- A record of one block of one wave, whose DONE is `d`. -/
def rec1 (d : DWord) : List DWord :=
  [0x0100020000000000, 0x100, 0x0001000100010000, 0, 0, 0, 0, d, 0x0400000000000000] ++ List.replicate 23 0
/-- The hub has cached the first page, the record lies at 0x4000, a context pool is open. -/
def stHub : State :=
  { State.reset with
    mem := writesFrom (hbmKey false 0x4000) (wordsBytes (rec1 0)) |>.filter fun c => c.2 != 0
    x := { tlb := [⟨64, 0, 0, false, false, 0, 21, 0, false, false, false, false, true, true, true⟩] }
    ctxPool := [(0, 0x8000000000010000), (1, 0x00FF0000)] }
/-- A grid of that record. -/
def grid1 : Grid := { record := rec1 0 }
/-- A grid all of whose blocks have ended. -/
def gridOld (d : DWord) : Grid := { record := rec1 d, placed := 1, ended := 1 }

theorem test_meets_LaunchEvents :
    (16#5).toNat < 17 ∧ (0xC000000000000004 : DWord).getLsbD 63 = true ∧
    ({ en := true, log2n := 4 } : LqSt).open' = true ∧ ({ en := true, log2n := 17 } : LqSt).open' = false ∧
    (let s := { stHub with lq := [(0, { subs := [.dev 0x4000 0] })] }
     (s.lqOf 0).subs = [.dev 0x4000 0] ∧ (match (s.setLq 0 { s.lqOf 0 with subs := [] }).hubRead 0 0 0x4000 256 with
      | .ok s2 bs => match s2.judge 0 0 (dwords bs) with
        | .accept _ g => g.record == rec1 0
        | _ => false
      | _ => false) = true) ∧ (1 : Nat) % 64 ≠ 0 ∧
    recVersion (rec1 0) = 1 ∧ recBad (rec1 0) = false ∧ recBad [0x0100020000000000] = true ∧ recVersion [] ≠ 1 ∧
    (match ({ stHub with grids := [grid1] } : State).dispatchAt 0 with
      | some ⟨.gang 0 0, [_], [_]⟩ => true
      | _ => false) = true ∧
    (let s := { stHub with grids := [grid1], gangs := [(0, [⟨0, 1, 0, [5]⟩, ⟨0, 0, 0, []⟩])], clk := 4096 }
     s.topGang 0 = some (.gang 0 0) ∧ (Sparse.get [] s.gangs 0).find? (fun y => y.isFor (.gang 0 0)) = some ⟨0, 0, 0, []⟩) ∧
    (let s := { stSpawn [(31, berth 1)] with clk := 2048 }
     (s.core 0).berths.find? (fun y => y.1 == 31) = some (31, berth 1) ∧ (berth 1).sailed = false ∧
      (berth 1).since + (if recTimer (s.grid 0).record 3 = 0 then 2048 else recTimer (s.grid 0).record 3) ≤ s.clk) ∧
    (let b := { berth 32 with sailed := true }
     let s := { stSpawn [(31, b)] with sailed := [(0, 31)], ctxPool := stHub.ctxPool }
     s.sailed[0]? = some (0, 31) ∧ s.frozen 0 (recBclass (s.grid 0).record 3) = false ∧ s.fenced 0 = false ∧ b.lanes.length ≤ 32 ∧
      (placeBlock (s.rooms [0]) 0 { rings := [ringSize (recBring (s.grid 0).record 3)] }).isSome = true ∧
      (match s.allocate 0 [blockUnits 0 0 + waveUnits (recBspill (s.grid 0).record 3) (recBsplit (s.grid 0).record 3) (ringSize (recBring (s.grid 0).record 3))] with
        | some [_] => true
        | _ => false) = true) ∧
    (let s := stB fun b => { b with ending := true }
     s.gov = [] ∧ (s.block 0).life = .resident ∧ (s.block 0).ending = true ∧ (s.block 0).halted = false ∧ (s.block 0).svc = false ∧
      (s.block 0).spawned = false ∧ s.ops = [] ∧ (s.block 0).grid < s.grids.length) ∧
    ({ stHub with grids := [gridOld 0] } : State).gridOver 0 = true ∧
    (let s := { stHub with grids := [gridOld 0x5000] }
     s.gridOver 0 = true ∧ recDone (s.grid 0).record ≠ 0 ∧
      (match (s.updGrid 0 fun g => { g with life := .ended, triangles := [] }).hubPlace 0 0 .engWrite 0x5000 16 with
        | .ok s2 ls => decide ((ls.map Loc.key).Nodup) && ls.all (fun l => decide (l.key < windowTop)) && !s2.heapInForce && s2.cmp.stored == []
        | _ => false) = true) ∧
    (let v : GovSt := { en := true }
     v.en = true ∧ v.last + 64 * max 1 v.period ≤ 4096) ∧
    (let s := { stB (fun b => { b with spawned := true }) with grids := [{ record := [0x0120000000000000], placed := 1 }] }
     0 < s.grids.length ∧ (s.grid 0).life = .active ∧ (s.grid 0).vm = 0 ∧ recKind (s.grid 0).record = 2 ∧ (s.block 0).stands = true) := by
  decide +kernel

/-! ### The Ferry, pre-emption, service cores, rasterisers -/

/-- A wave whose core's Ferry holds a job; its context page is cached. -/
def stFerry (j : List FerryJob) : State :=
  { stW (fun w => { w with frames := [⟨0x40, 8, true, 0⟩], onchip := 1, refilling := true, ctx := 0x10000, wb := 32 }) with
    cores := [(0, { ferry := j })]
    x := { tlb := [⟨tlbContext 0, 0, 0, false, true, 0, 21, 0, false, false, false, false, true, true, true⟩] } }
/-- What a Ferry access answers. -/
def places (f : Ferried) (n : Nat) : Bool :=
  match f with
  | .ok s ks => ks.length == n && !s.heapInForce && s.cmp.stored == [] && ks.all fun k => decide (k + 128 ≤ windowTop)
  | _ => false

theorem test_meets_FerryAndPreemptionEvents :
    (let s := stFerry [.record 0 1 ⟨0x40, 8, false, 0⟩]
     s.slotFor 1 (s.block (s.wave 0).block).cls.val = true ∧ s.nextJob 0 = some (0, .record 0 1 ⟨0x40, 8, false, 0⟩) ∧ places (s.ferryPlace 0 .spill [(s.wave 0).recordVa 1]) 1 = true) ∧
    (let s := stFerry [.spill 0 0 0 [(List.replicate 32 5, 0)]]
     s.nextJob 0 = some (0, .spill 0 0 0 [(List.replicate 32 5, 0)]) ∧ places (s.ferryPlace 0 .spill [(s.wave 0).slotVa 0 0]) 1 = true) ∧
    (let s := stFerry [.spill 0 0 0 (List.replicate 32 (List.replicate 32 5, 0))]
     let w := s.wave 0
     w.frames.getLast? = some ⟨0x40, 8, true, 0⟩ ∧ w.refilling = true ∧ s.onCore 0 = true ∧ w.onchip ≠ 0 ∧ w.unwind = none ∧
      (s.bufferedFrame 0 0).map List.length = some (Frame.size ⟨0x40, 8, true, 0⟩) ∧ Frame.size ⟨0x40, 8, true, 0⟩ ≤ w.ringN ∧ w.wb < w.ringN) ∧
    (stW (framed false)).onCore 0 = true ∧
    (let s := { stFerry [] with waves := (stW fun w => { w with frames := [⟨0x40, 8, true, 0⟩, ⟨0x80, 8, true, 32⟩], onchip := 0, ctx := 0x10000 }).waves }
     (s.wave 0).frames.length - (s.wave 0).onchip = 2 ∧ (s.wave 0).onchip < 16 ∧ s.onCore 0 = true ∧ (s.wave 0).unwind = none ∧
      (s.core (s.block (s.wave 0).block).core).ferry = [] ∧ s.slotFor 1 (s.block (s.wave 0).block).cls.val = true ∧
      places (s.ferryPlace 0 .refill [(s.wave 0).recordVa 2, (s.wave 0).recordVa 2 + 8]) 2 = true) ∧
    ((stSpawn [(31, berth 1)]).sailAffected 0 none).selection 0 none = [0, 1] ∧
    (st.selection 0 none = [0] ∧ (st.pmtOf 0).act = none ∧ ((⟨false, false, 0, 0, some (0, none), [0]⟩ : PmtSt).act ≠ none)) ∧
    (let s := { stB (fun b => { b with halted := true, area := 0x10000 }) with
                pmt := [(0, { act := some (0, none), sel := [0] })]
                waves := (stW fun w => { w with ctx := 0x20000 }).waves, x := (stFerry []).x }
     (s.pmtOf 0).sel.contains 0 = true ∧ (s.block 0).life = .resident ∧ (s.block 0).halted = true ∧
      s.slotFor 1 (s.block 0).cls.val = true ∧ (s.block 0).saveFault = none ∧ s.rasterPending 0 = false ∧
      (let s1 := s.release 0 0 .system
       match s1.placeAll 0 0 ⟨0, 0, true, false⟩ .engWrite ((s1.saveSectors 0).map Prod.fst) with
        | .ok s2 _ => decide (0 < s2.blocks.length)
        | _ => false) = true) := by decide +kernel

/-- A trapped wave in its cluster's queue, with a handler whose record lies at 0x4000 of the context space. -/
def stTrap : State :=
  { stW (fun w => { w with life := .trapped }) with
    svcQueue := [(0, [0])]
    svcImg := [(0, 0x8000000000004000)]
    mem := writesFrom (hbmKey false 0x4000) (wordsBytes (rec1 0)) |>.filter fun c => c.2 != 0
    x := (stFerry []).x
    ctxPool := stHub.ctxPool }
/-- A handler that has given a command. -/
def stCmd (n : Nat) : State :=
  { stTrap with waves := (stW fun w => { w with life := .handled, trap := some ⟨1, true, 1, 0, 0, 0⟩ }).waves ++ [{ block := 1 }]
                blocks := st.blocks ++ [{ svc := true, waves := [1] }]
                svc := [(0, { handled := some 0, block := 1, cmd := some n })] }

theorem test_meets_ServiceEvents :
    (stTrap.svcOf 0 = [0] ∧ (stTrap.svcAt 0).handled = none ∧ (stTrap.block 0).halted = false ∧
      (match ({ stTrap with svcQueue := Sparse.set [] stTrap.svcQueue 0 [] } : State).svcFetch 0 0 0x4000 256 with
        | .ok s1 bs => decide (s1.waves = stTrap.waves) && !handlerBad 0x4000 (dwords bs) && recArgw (dwords bs) == 0 && recPwmask (dwords bs) == 0 &&
            (match (s1.keepRecord 0 0x4000 bs).allocate 0 [recUnits (dwords bs)] with
              | some [_] => true
              | _ => false)
        | _ => false) = true) ∧
    (let s := stCmd 1
     (s.svcAt 0).clears = [] ∧ (s.svcAt 0).selects = [] ∧ (s.svcAt 0).handled = some 0 ∧ 0 < s.waves.length ∧ 0 ∉ (s.block (s.svcAt 0).block).waves ∧
      (s.svcAt 0).cmd = some 1 ∧ (s.wave 0).fwait = false ∧ (s.wave 0).split = [] ∧ (s.wave 0).resumable = true ∧
      (s.wave 0).trap = some ⟨1, true, 1, 0, 0, 0⟩ ∧ ((s.wave 0).slot false).valid = true ∧ (s.wave 0).depth ≤ ((s.wave 0).path false).depth ∧
      (s.wave 0).launched &&& ~~~ (s.wave 0).exited ≠ 0) ∧
    (let s := { stCmd 1 with waves := (stW fun w => { w with life := .handled, splitMax := 0, split := [({} : Path)] }).waves ++ ([{ block := 1 }] : List Wave) }
     (s.svcAt 0).cmd = some 1 ∧ (s.svcAt 0).handled = some 0 ∧ 0 ∉ (s.block (s.svcAt 0).block).waves ∧
      (s.wave 0).splitMax < (s.wave 0).split.length ∧ (s.wave 0).fwait = false) ∧
    ((stCmd 2).svcAt 0).cmd = some 2 ∧ ((stCmd 3).svcAt 0).cmd = some 3 ∧ ((stCmd 5).svcAt 0).cmd = some 5 ∧
    (((stCmd 4).svcAt 0).cmd = some 4 ∧ ((stCmd 4).core 0).jobsOf 0 = []) ∧
    (let s := { State.reset with cores := [(3, { locks := [none, some ⟨true, 2, 0, 0, 0, 0, 0, 0, 0⟩] })], blocks := [{ life := .killed 0x43 }]
                                 svc := [(0, { clears := [(3, 1)] })] }
     clusterOf 3 = 0 ∧ (3 % 4, 1) ∈ (s.svcAt 0).clears ∧ (s.core 3).locks.getD 1 none = some ⟨true, 2, 0, 0, 0, 0, 0, 0, 0⟩ ∧
      (s.block (((s.ops[0]?).map EngOp.block).getD 0)).life = .killed 0x43) ∧
    ({ selects := [0x71111] } : SvcSt).selects = 0x71111 :: [] := by decide +kernel

/-- A RASTER grid with one triangle of wave 0. -/
def gridRas (clear : DWord) : Grid :=
  { record := [0x0110020000000000, 0x100, 0x0001000100010000], placed := 1, triangles := [{ wave := 0, draw := 0, prim := 0, verts := [] }]
    raster := List.replicate 8 0 ++ [clear], gb := [{ expect := 1, members := 1, raster := true, e := 1 }] }

theorem test_meets_RasterEvents :
    (gridRas 0).rasters = true ∧ (gridRas 0).rasClear = false ∧ (gridRas 0).rasterFault = [] ∧
    (gridRas 0).triangles = [{ wave := 0, draw := 0, prim := 0, verts := [] }] ∧ (0xFFFF : BitVec 16).getLsbD 15 = true ∧
    (let s := { State.reset with grids := [gridRas 0] }
     s.slotFor 1 (recClass (s.grid 0).record) = true ∧ (match s.rasTriangle (s.grid 0) 15 { wave := 0, draw := 0, prim := 0, verts := [] } with
      | .ok s1 _ => decide (s1.grids = s.grids)
      | _ => false) = true) ∧
    (gridRas 0x800000).rasClear = true ∧
    (let s := { State.reset with grids := [gridRas 0x800000] }
     (s.grid 0).cleared.getLsbD 15 = false ∧ (match s.rasClearAll (s.grid 0) 15 with
      | .ok s1 _ => decide (s1.grids = s.grids)
      | _ => false) = true) ∧
    (let s := { State.reset with grids := [{ gridRas 0 with triangles := [] }] }
     s.emissionOver 0 = true ∧ (s.grid 0).rasterDone = false ∧ (s.grid 0).triangles = [] ∧ (s.grid 0).gb.any (fun b => b.raster && b.expect != 0) = true) := by
  decide +kernel

/-! ### The device and its hosts -/

theorem test_meets_DeviceEvents :
    (let s := stB fun b => { b with core := 159 }
     s.clFenced.contains 39 = false ∧ s.clRetired.contains 39 = false ∧ (s.block 0).life = .resident ∧ (s.block 0).svc = false ∧
      clusterOf (s.block 0).core = 39 ∧ s.svc = []) ∧
    State.reset.chPending.contains (7, 63) = false ∧ State.reset.chRetired.contains (7, 63) = false ∧ State.reset.fatal = 0 ∧
    1 ≤ (4#3).toNat ∧ State.reset.dumpEn = false ∧ State.reset.um.lost = false ∧ ({ lost := true } : UmSt).lost = true ∧
    (∃ c ∈ [((7, 63) : Nat × Nat)], c.1 = (7 * 2 ^ 37) / 2 ^ 37) := by
  refine ⟨?_, ?_, ?_, ?_, ?_, ?_, ?_, ?_, ⟨(7, 63), ?_, ?_⟩⟩ <;> decide +kernel

/-- The link is up; a mailbox has begun a command. -/
def stHost (cmd slot : Nat) : State :=
  { stHub with pcie := { up := true, width := 16, rate := 7 }, ports := [(15, ⟨true, 2⟩)]
               mbox := [(0, { cmd := 0xFFFF, slot := 1, runCmd := cmd, runSlot := slot, busy := true, len := 2 ^ 32 - 1, addr := 2 ^ 51 })] }
/-- The same of the last virtual function, with a buffer of one byte. -/
def stHostVf (cmd slot : Nat) : State :=
  { stHost cmd slot with mbox := [(16, { runCmd := cmd, runSlot := slot, busy := true, len := 1 })], um := { (stHost cmd slot).um with booted := true } }
/-- The same with firmware that has not booted. -/
def stHostCold (cmd : Nat) : State := { stHost cmd 1 with um := { (stHost cmd 1).um with booted := false } }

theorem test_meets_HostEvents_bar2 :
    (Reached (stHost 1 0) 0 ∧ PlainStore (stHost 1 0) ∧
      (match (stHost 1 0).placeAll 64 3 ⟨0, 0, false, false⟩ .load (span 0x1FFFFC 4) with
        | .ok s1 ls => decide (s1.heapInForce = false ∧ s1.cmp.stored = []) && ls.all fun l => decide (l.key < windowTop)
        | _ => false) = true ∧
      (match (stHost 1 0).placeAll 64 3 ⟨0, 0, false, false⟩ .store (span 0x1FFFFC 4) with
        | .ok s1 ls => decide (s1.heapInForce = false ∧ s1.cmp.stored = []) && ls.length == 4 && ls.all fun l => decide (l.key < windowTop)
        | _ => false) = true) ∧
    -- a VA that no page maps
    (match (stHost 1 0).placeAll 64 3 ⟨0, 0, false, false⟩ .load (span 0x200000 4) with
      | .fault .. => true
      | _ => false) = true ∧
    (match (stHost 1 0).placeAll 64 3 ⟨0, 0, false, false⟩ .store (span 0x200000 4) with
      | .fault .. => true
      | _ => false) = true := by
  refine ⟨⟨⟨?_, ?_, Or.inl rfl⟩, ⟨?_, ?_⟩, ?_, ?_⟩, ?_, ?_⟩ <;> decide +kernel

theorem test_meets_HostEvents_peer :
    (Sparse.get {} (stHost 1 0).ports 15 : Port).up = true ∧ PlainStore (stHost 1 0) ∧ (∃ a ∈ span (2 ^ 40 - 1) 2, 2 ^ 40 ≤ a) ∧
    ((2 ^ 40 - 16 : Nat) + 16 ≤ 2 ^ 40 ∧
      ∀ k ∈ (span (2 ^ 40 - 16) 16).map (hbmKey false), (stHost 1 0).present k = true ∧ (stHost 1 0).isProtected k = false) ∧
    ((9, AtomOp.cas, Ty.b64, 8) ∈ peerAtomics ∧ (13, AtomOp.max, Ty.i32, 4) ∈ peerAtomics ∧ (10, AtomOp.faddF32, Ty.f32, 4) ∈ peerAtomics) ∧
    (stHost 1 0).poison = [] ∧ (stHost 1 0).hbmErr = [] ∧ (stHost 1 0).cmp.en = false := by
  refine ⟨?_, ⟨?_, ?_⟩, ⟨2 ^ 40, ?_, ?_⟩, ⟨?_, ?_⟩, ⟨?_, ?_, ?_⟩, ?_, ?_, ?_⟩ <;> decide +kernel

theorem test_meets_HostEvents_registers :
    Reached (stHost 1 0) 0 ∧ (Reached (stHostVf 1 0) 16 ∧ vfReaches 0 = false) ∧ (regWrite 0 0x3FFFFF8 0).isNone = true ∧
    (16 < 17 ∧ (0x80 : BitVec 26).toNat = 8 * 16) ∧
    ((stHost 1 0).mbOf 0).busy = true ∧ (State.reset.mbOf 0).busy = false ∧ (0x8000000000010005 : DWord).getLsbD 63 = true := by
  refine ⟨⟨?_, ?_, Or.inl rfl⟩, ⟨⟨?_, ?_, Or.inr ?_⟩, ?_⟩, ?_, ⟨?_, ?_⟩, ?_, ?_, ?_⟩ <;> decide +kernel

/-- `MbAsked` and `MbCommand`, to compute. -/
def asked (s : State) (fn : BitVec 5) (cmd : Nat) : Bool :=
  decide (fn.toNat < 17) && (s.mbOf fn.toNat).busy && (s.mbOf fn.toNat).result == none && (s.mbOf fn.toNat).runCmd == cmd && s.pcie.up
theorem test_asked_says {s : State} {fn : BitVec 5} {cmd : Nat} (h : asked s fn cmd = true) : MbAsked s fn cmd ∧ s.pcie.up = true := by
  simp only [asked, Bool.and_eq_true, decide_eq_true_eq, beq_iff_eq] at h
  exact ⟨⟨h.1.1.1.1, h.1.1.1.2, h.1.1.2, h.1.2⟩, h.2⟩

theorem test_meets_HostEvents_refused :
    (asked (stHostCold 1) 0 1 && asked (stHostCold 2) 0 2 && !(stHostCold 1).um.booted) = true ∧
    (asked (stHostVf 1 0) 16 1 && asked (stHostVf 2 0) 16 2 && (stHostVf 1 0).um.booted) = true ∧
    ((stHostVf 1 0).mbOf 16).len < 30448 ∧
    (asked (stHostVf 3 1) 16 3 && asked (stHost 3 0) 0 3) = true ∧ ((stHost 3 0).mbOf 0).runSlot = (stHost 3 0).um.running ∧
    (asked (stHostVf 4 0) 16 4 && asked (stHostCold 4) 0 4) = true ∧
    (asked (stHostVf 5 0) 16 5 && asked (stHostCold 5) 0 5) = true ∧ (stHostCold 5).fatal = 0 := by decide +kernel

theorem test_meets_HostEvents_commands :
    (PlainStore (stHost 1 0) ∧ ((stHost 1 0).mbOf 0).addr + ((stHost 1 0).mbOf 0).len ≤ 2 ^ 52) ∧
    (asked (stHost 1 0) 0 1 && (stHost 1 0).um.booted) = true ∧ 30448 ≤ ((stHost 1 0).mbOf 0).len ∧
    Config.identityLen.toNat ≤ ((stHost 2 0).mbOf 0).len ∧ (asked (stHost 2 0) 0 2 && asked (stHost 3 1) 0 3 && asked (stHost 4 1) 0 4 && asked (stHost 5 0) 0 5) = true ∧
    ((stHost 3 1).mbOf 0).runSlot ≠ (stHost 3 1).um.running ∧ (stHost 5 0).fatal = 0 ∧
    (let s := { stHost 2 0 with mbox := [(16, { busy := true, result := some (0, 7) })] }
     (s.mbOf 16).result = some (0, 7) ∧ (s.mbOf 16).busy = true) := by
  refine ⟨⟨⟨?_, ?_⟩, ?_⟩, ?_, ?_, Nat.le_of_lt_succ Config.identityLen.isLt, ?_⟩ <;> decide +kernel

end Sys2Proof.Tests
end

section
/-! What the instructions of R197 and R201 do to a wave: masks of lanes, the copies of the reuse hints, the counters of a
slot's lanes, and what `State.finish` leaves of the wave that it is given; from these the obligations of branches
and structured flow. -/
namespace Sys2Proof.Machine
open Sys2Proof Sys2Proof.Claims

/-! ## Masks of lanes -/

theorem mem_lanesOf {m : LaneMask} {l : Nat} : l ∈ lanesOf m ↔ m.getLsbD l = true := by
  simp only [lanesOf, List.mem_filter, List.mem_range, and_iff_right_iff_imp]
  exact BitVec.lt_of_getLsbD

theorem lanesOf_nodup (m : LaneMask) : (lanesOf m).Nodup := List.nodup_range.filter _

/-- The sum of the powers of two for which `p` holds, below `2 ^ n`, has those bits and no others. -/
theorem testBit_sum_two_pow (p : Nat → Bool) (n : Nat) :
    (List.range n).foldl (fun a l => if p l then a + 2 ^ l else a) 0 < 2 ^ n ∧
      ∀ l, ((List.range n).foldl (fun a l => if p l then a + 2 ^ l else a) 0).testBit l = (decide (l < n) && p l) := by
  induction n with
  | zero => simp
  | succ n ih =>
    obtain ⟨hlt, hbit⟩ := ih
    rw [List.range_succ, List.foldl_append, List.foldl_cons, List.foldl_nil]
    generalize (List.range n).foldl (fun a l => if p l then a + 2 ^ l else a) 0 = a at hlt hbit
    have hsucc {l : Nat} (h : l ≠ n) : l < n + 1 ↔ l < n := by omega
    by_cases hp : p n
    · have hor : a + 2 ^ n = 2 ^ n ||| a := by simpa [Nat.add_comm] using Nat.two_pow_add_eq_or_of_lt hlt 1
      rw [if_pos hp]
      refine ⟨by omega, fun l => ?_⟩
      rw [hor, Nat.testBit_or, Nat.testBit_two_pow, hbit]
      by_cases h : l = n
      · simp [h, hp]
      · simp [hsucc h, Ne.symm h]
    · rw [if_neg hp]
      refine ⟨by omega, fun l => ?_⟩
      rw [hbit]
      by_cases h : l = n
      · simp [h, hp]
      · simp [hsucc h]

theorem getLsbD_maskOf (p : Nat → Bool) {l : Nat} (h : l < 32) : (maskOf p).getLsbD l = p l := by
  rw [maskOf, BitVec.getLsbD_ofNat, (testBit_sum_two_pow p 32).2]
  simp [h]

/-- A mask is known by its lanes. -/
theorem maskOf_eq {m : LaneMask} {p : Nat → Bool} (h : ∀ l < 32, m.getLsbD l = p l) : maskOf p = m :=
  BitVec.eq_of_getLsbD_eq fun l hl => (getLsbD_maskOf p hl).trans (h l hl).symm

theorem maskOf_eq_zero {p : Nat → Bool} : maskOf p = 0 ↔ ∀ l < 32, p l = false := by
  constructor
  · intro h l hl
    rw [← getLsbD_maskOf p hl, h]
    simp
  · exact fun h => maskOf_eq fun l hl => by simp [h l hl]

/-! ## What a wave keeps that differs in registers only -/

theorem Wave.SameButRegs.slot {w v : Wave} (h : w.SameButRegs v) (k : Bool) : v.slot k = w.slot k := by rw [h]; rfl
theorem Wave.SameButRegs.path {w v : Wave} (h : w.SameButRegs v) (k : Bool) : v.path k = w.path k := congrArg Slot.path (h.slot k)
theorem Wave.SameButRegs.split {w v : Wave} (h : w.SameButRegs v) : v.split = w.split := by rw [h]
theorem Wave.SameButRegs.nest {w v : Wave} (h : w.SameButRegs v) : v.nest = w.nest := by rw [h]
theorem Wave.SameButRegs.jreg {w v : Wave} (h : w.SameButRegs v) : v.jreg = w.jreg := by rw [h]

/-! ## The reuse hints (R177) -/

/-- A register word reads in one wave as in another, and is as much poisoned. -/
def Wave.AgreesAt (w v : Wave) (k : Nat) : Prop := v.reg k = w.reg k ∧ v.poisoned k = w.poisoned k

theorem Wave.AgreesAt.refl (w : Wave) (k : Nat) : w.AgreesAt w k := ⟨rfl, rfl⟩

theorem Wave.AgreesAt.trans {w v u : Wave} {k : Nat} (h : w.AgreesAt v k) (h' : v.AgreesAt u k) : w.AgreesAt u k :=
  ⟨h'.1.trans h.1, h'.2.trans h.2⟩

theorem Wave.agreesAt_copyTo (w old : Wave) {act : LaneMask} {r k : Nat} (o : Operand) (h : ∀ l ∈ lanesOf act, k ≠ oKey r l) :
    w.AgreesAt (w.copyTo old act r o) k := by
  refine List.foldlRecOn (motive := fun v => w.AgreesAt v k) (lanesOf act) _ (.refl w k) fun v hv l hl => hv.trans ?_
  simp [Wave.AgreesAt, h l hl]

/-- The copies that the hints ask for reach the reuse registers of the active lanes and no other. -/
theorem Wave.agreesAt_reuse (w old : Wave) {act : LaneMask} {hint : Hint} {k : Nat} (a b : Option Operand)
    (hA : hint.reuseA = true → ∀ l ∈ lanesOf act, k ≠ oKey 0 l) (hB : hint.reuseB = true → ∀ l ∈ lanesOf act, k ≠ oKey 1 l) :
    w.AgreesAt (w.reuse old act hint a b) k := by
  have copyA (eA : hint.reuseA = true) (o : Operand) := w.agreesAt_copyTo old o (hA eA)
  have copyB (eB : hint.reuseB = true) (v : Wave) (o : Operand) := v.agreesAt_copyTo old o (hB eB)
  unfold Wave.reuse
  dsimp only
  split
  · rename_i oB eB
    split
    · rename_i oA eA
      exact (copyA eA oA).trans (copyB eB _ oB)
    · exact copyB eB w oB
  · split
    · rename_i oA eA
      exact copyA eA oA
    · exact .refl w k

theorem Ctx.ne_oKey_of_notMem_reuseKeys {c : Ctx} {k : Nat} (h : k ∉ reuseKeys c) :
    (c.h.hint.reuseA = true → ∀ l ∈ lanesOf c.act, k ≠ oKey 0 l) ∧ (c.h.hint.reuseB = true → ∀ l ∈ lanesOf c.act, k ≠ oKey 1 l) := by
  simp only [reuseKeys, List.mem_flatMap, List.mem_append, not_exists, not_and, not_or] at h
  constructor <;> intro e l hl
  · simpa [e] using (h l hl).1
  · simpa [e] using (h l hl).2

/-! ## The paths of a wave -/

theorem State.ctx_valid {s : State} {h : Hdr} {c : Ctx} (hc : s.ctx h = some c) : (c.w.slot c.isB).valid = true := by
  obtain ⟨-, -, -, -, -, -, hv⟩ := State.ctx_fields hc
  exact hv

/-- A wave differs from the issuing one at most in its paths, counters, J registers and the marks of its issue. -/
def Ctx.Flowing (c : Ctx) (w : Wave) : Prop :=
  w = { c.w with slotA := w.slotA, slotB := w.slotB, split := w.split, nest := w.nest, jreg := w.jreg, young := w.young, hold := w.hold }

/-- The issuing slot stands at `p` in a wave that has its other paths as the issuing one. -/
structure Ctx.Stands (c : Ctx) (w : Wave) (p : Path) : Prop where
  flowing : c.Flowing w
  path : w.path c.isB = p
  valid : (w.slot c.isB).valid = true
  otherPath : w.path (!c.isB) = c.w.path (!c.isB)
  otherValid : (w.slot (!c.isB)).valid = (c.w.slot (!c.isB)).valid
  split : w.split = c.w.split

theorem Ctx.Flowing.setSlot {c : Ctx} {w : Wave} (h : c.Flowing w) (k : Bool) (sl : Slot) : c.Flowing (w.setSlot k sl) := by
  unfold Ctx.Flowing at h ⊢
  cases k <;> (rw [h]; rfl)

theorem Ctx.Flowing.setPath {c : Ctx} {w : Wave} (h : c.Flowing w) (k : Bool) (p : Path) : c.Flowing (w.setPath k p) := h.setSlot k _

theorem Ctx.Flowing.goto {c : Ctx} {w : Wave} (h : c.Flowing w) (k : Bool) (pc : DWord) : c.Flowing (w.goto k pc) := h.setPath k _

theorem Ctx.Flowing.place {c : Ctx} {w : Wave} (h : c.Flowing w) (k : Bool) (p : Path) : c.Flowing (w.place k p) := by
  unfold Wave.place
  split
  · unfold Ctx.Flowing at h ⊢
    rw [h]
  · exact h.setSlot _ _

theorem Ctx.Flowing.setNest {c : Ctx} {w : Wave} (h : c.Flowing w) (l n : Nat) : c.Flowing (w.setNest l n) := by
  unfold Ctx.Flowing at h ⊢
  rw [h]; rfl

theorem Ctx.flowing_go (c : Ctx) (s : State) : c.Flowing (c.go s) := rfl

@[simp] theorem Ctx.go_path (c : Ctx) (s : State) (k : Bool) : (c.go s).path k = c.w.path k := Wave.issued_path ..
@[simp] theorem Ctx.go_valid (c : Ctx) (s : State) (k : Bool) : ((c.go s).slot k).valid = (c.w.slot k).valid := by
  obtain ⟨_, _, isB, _, _, _, _, _, _⟩ := c
  cases k <;> cases isB <;> rfl

@[simp] theorem Wave.setPath_valid (w : Wave) (k j : Bool) (p : Path) : ((w.setPath k p).slot j).valid = (w.slot j).valid := by
  cases k <;> cases j <;> rfl
@[simp] theorem Wave.setSlot_split (w : Wave) (k : Bool) (sl : Slot) : (w.setSlot k sl).split = w.split := by cases k <;> rfl
@[simp] theorem Wave.setSlot_nest (w : Wave) (k : Bool) (sl : Slot) : (w.setSlot k sl).nest = w.nest := by cases k <;> rfl
@[simp] theorem Wave.setSlot_jreg (w : Wave) (k : Bool) (sl : Slot) : (w.setSlot k sl).jreg = w.jreg := by cases k <;> rfl
@[simp] theorem Wave.setPath_split (w : Wave) (k : Bool) (p : Path) : (w.setPath k p).split = w.split := Wave.setSlot_split ..
@[simp] theorem Wave.setPath_nest (w : Wave) (k : Bool) (p : Path) : (w.setPath k p).nest = w.nest := Wave.setSlot_nest ..
@[simp] theorem Wave.setPath_jreg (w : Wave) (k : Bool) (p : Path) : (w.setPath k p).jreg = w.jreg := Wave.setSlot_jreg ..

theorem Ctx.stands_go {c : Ctx} (s : State) (hv : (c.w.slot c.isB).valid = true) : c.Stands (c.go s) c.path where
  flowing := c.flowing_go s
  path := c.go_path s _
  valid := by simp [hv]
  otherPath := c.go_path s _
  otherValid := c.go_valid s _
  split := rfl

theorem Ctx.Stands.goto {c : Ctx} {w : Wave} {p : Path} (h : c.Stands w p) (pc : DWord) :
    c.Stands (w.goto c.isB pc) { p with pc := pc } where
  flowing := h.flowing.goto _ _
  path := by rw [Wave.goto, Wave.path_setPath_same, h.path]
  valid := by rw [Wave.goto, Wave.setPath_valid, h.valid]
  otherPath := by rw [Wave.goto, Wave.path_setPath_other, h.otherPath]
  otherValid := by rw [Wave.goto, Wave.setPath_valid, h.otherValid]
  split := by rw [Wave.goto, Wave.setPath_split, h.split]

/-- Where the slot stands at `p`, the next instruction is the one after `p`. -/
theorem Ctx.Stands.step12_eq {c : Ctx} {w : Wave} {p : Path} (h : c.Stands w p) : w.step12 c.isB = w.goto c.isB (p.pc + 12) := by
  rw [Wave.step12, h.path]

theorem Ctx.Stands.setNest {c : Ctx} {w : Wave} {p : Path} (h : c.Stands w p) (l n : Nat) : c.Stands (w.setNest l n) p where
  flowing := h.flowing.setNest l n
  path := h.path
  valid := h.valid
  otherPath := h.otherPath
  otherValid := h.otherValid
  split := h.split

theorem Ctx.Stands.mapNest {c : Ctx} {w : Wave} {p : Path} (h : c.Stands w p) (f : Nat → Nat → Nat) : c.Stands (c.mapNest w f) p :=
  List.foldlRecOn (motive := fun v => c.Stands v p) (lanesOf c.mask) _ h fun _ hv l _ => hv.setNest l _

/-! ## Counters (R197) -/

@[simp] theorem Wave.nestOf_setNest (w : Wave) (l n j : Nat) : (w.setNest l n).nestOf j = if j = l then n else w.nestOf j :=
  Sparse.get_set 0 l j n w.nest

@[simp] theorem Wave.nestOf_goto (w : Wave) (k : Bool) (pc : DWord) (l : Nat) : (w.goto k pc).nestOf l = w.nestOf l := by
  rw [Wave.nestOf, Wave.goto, Wave.setPath_nest, Wave.nestOf]

theorem Wave.nestOf_foldl_setNest (f : Nat → Nat → Nat) {ls : List Nat} (hls : ls.Nodup) (w : Wave) (j : Nat) :
    (ls.foldl (fun w l => w.setNest l (f l (w.nestOf l))) w).nestOf j = if j ∈ ls then f j (w.nestOf j) else w.nestOf j := by
  induction ls generalizing w with
  | nil => rfl
  | cons l t ih =>
    obtain ⟨hl, ht⟩ := List.nodup_cons.mp hls
    rw [List.foldl_cons, ih ht]
    by_cases hj : j = l
    · subst hj; simp [hl]
    · simp [hj]

/-- Each lane of the slot's MASK has its counter changed once. -/
theorem Ctx.nestOf_mapNest (c : Ctx) (w : Wave) (f : Nat → Nat → Nat) (l : Nat) :
    (c.mapNest w f).nestOf l = if c.mask.getLsbD l then f l (w.nestOf l) else w.nestOf l := by
  simp only [Ctx.mapNest, Wave.nestOf_foldl_setNest f (lanesOf_nodup c.mask), mem_lanesOf]

/-- In a wave, the counters of the slot's MASK are what `f` makes of those of the issuing wave; the others are as they were. -/
def Ctx.Counts (c : Ctx) (w : Wave) (f : Nat → Nat → Nat) : Prop :=
  ∀ l, w.nestOf l = if c.mask.getLsbD l then f l (c.w.nestOf l) else c.w.nestOf l

theorem Ctx.counts_mapNest_go (c : Ctx) (s : State) (f : Nat → Nat → Nat) : c.Counts (c.mapNest (c.go s) f) f :=
  c.nestOf_mapNest (c.go s) f

theorem Ctx.Counts.mapNest {c : Ctx} {w : Wave} {f : Nat → Nat → Nat} (h : c.Counts w f) (g : Nat → Nat → Nat) :
    c.Counts (c.mapNest w g) fun l k => g l (f l k) := by
  intro l
  rw [c.nestOf_mapNest, h l]
  split <;> rfl

theorem Ctx.Counts.goto {c : Ctx} {w : Wave} {f : Nat → Nat → Nat} (h : c.Counts w f) (k : Bool) (pc : DWord) :
    c.Counts (w.goto k pc) f := by
  intro l
  rw [← h l, Wave.nestOf_goto]

theorem Ctx.anyZero_iff {c : Ctx} {w : Wave} : c.anyZero w = true ↔ ∃ l < 32, c.mask.getLsbD l = true ∧ w.nestOf l = 0 := by
  simp only [Ctx.anyZero, List.any_eq_true, mem_lanesOf, beq_iff_eq]
  exact exists_congr fun l => ⟨fun h => ⟨BitVec.lt_of_getLsbD h.1, h⟩, And.right⟩

/-! ## NESTING_OVERFLOW (R198) -/

theorem Ctx.nestOver_none {c : Ctx} {f : Nat → Nat → Nat} (h : ∀ l < 32, c.mask.getLsbD l = true → f l (c.w.nestOf l) ≤ 63) :
    c.nestOver f = none := by
  have h0 : maskOf (fun l => c.mask.getLsbD l && decide (63 < f l (c.w.nestOf l))) = 0 :=
    maskOf_eq_zero.mpr fun l hl => by simpa using h l hl
  exact if_pos h0

theorem Ctx.nestOver_some {c : Ctx} {f : Nat → Nat → Nat} (h : ∃ l < 32, c.mask.getLsbD l = true ∧ 63 < f l (c.w.nestOf l)) :
    ∃ m, c.nestOver f = some (Cause.nestingOverflow, m, 0) := by
  obtain ⟨l, hl, hm, hf⟩ := h
  have h0 : maskOf (fun l => c.mask.getLsbD l && decide (63 < f l (c.w.nestOf l))) ≠ 0 := fun e => by
    simpa [hm, hf] using maskOf_eq_zero.mp e l hl
  exact ⟨_, if_neg h0⟩

/-! ## Finishing -/

theorem Ctx.target_eq_targetOf (c : Ctx) (imm : Word) : c.target imm = targetOf c imm := by
  have h : imm.signExtend 64 <<< 2 = 4 * imm.signExtend 64 := by
    rw [BitVec.shiftLeft_eq_mul_twoPow, BitVec.mul_comm]; rfl
  rw [Ctx.target, h, targetOf]

theorem State.addJobs_eq (s : State) (core : Nat) (js : List FerryJob) :
    s.addJobs core js = { s with cores := (s.addJobs core js).cores } := by
  unfold State.addJobs
  split <;> rfl

theorem State.finish_eq (s : State) (c : Ctx) (w : Wave) (a b : Option Operand) :
    s.finish c w a b = { s.setWave c.wi (w.reuse c.w c.act c.h.hint a b) with cores := (s.finish c w a b).cores } :=
  State.addJobs_eq ..

theorem State.finish_wave (s : State) {c : Ctx} (h : c.wi < s.waves.length) (w : Wave) (a b : Option Operand) :
    (s.finish c w a b).wave c.wi = w.reuse c.w c.act c.h.hint a b := by
  rw [State.finish_eq]
  exact State.wave_setWave_same s c.wi _ h

theorem Ctx.Flowing.counted {c : Ctx} {w : Wave} (h : c.Flowing w) : w.counted = c.w.counted := by rw [h]

theorem Ctx.Flowing.sameButRegs_reuse {c : Ctx} {w : Wave} (h : c.Flowing w) (a b : Option Operand) :
    w.SameButRegs (w.reuse c.w c.act c.h.hint a b) :=
  Wave.sameButRegs_reuse c.act c.h.hint a b h.counted

theorem Ctx.Flowing.sameRegs_reuse {c : Ctx} {w : Wave} (h : c.Flowing w) (a b : Option Operand) :
    SameRegs c (w.reuse c.w c.act c.h.hint a b) := by
  intro k hk
  obtain ⟨hA, hB⟩ := Ctx.ne_oKey_of_notMem_reuseKeys hk
  obtain ⟨hreg, hpoison⟩ := w.agreesAt_reuse c.w a b hA hB
  rw [hreg, hpoison, h]
  exact ⟨rfl, fun _ => rfl⟩

section Finish
variable {s : State} {h : Hdr} {c : Ctx} (hc : s.ctx h = some c)
include hc

theorem State.finish_sameButRegs {w : Wave} (hw : c.Flowing w) (a b : Option Operand) :
    w.SameButRegs ((s.finish c w a b).wave c.wi) := by
  rw [State.finish_wave s (State.ctx_lt hc)]
  exact hw.sameButRegs_reuse a b

/-- Nothing flows but the wave, and of the wave its paths, counters and J registers. -/
theorem State.finish_flows {w : Wave} (hw : c.Flowing w) (a b : Option Operand) : Flows s (s.finish c w a b) c := by
  have hlt := State.ctx_lt hc
  have hwave := State.finish_wave s hlt w a b
  refine ⟨?_, hlt, hwave ▸ hw.sameRegs_reuse a b, ?_⟩
  · show { s.finish c w a b with cores := s.cores } = { s with waves := s.waves.set c.wi ((s.finish c w a b).wave c.wi) }
    rw [hwave, State.finish_eq]; rfl
  · have hv := State.finish_sameButRegs hc hw a b
    generalize (s.finish c w a b).wave c.wi = v at hv
    rw [hv, hw]

theorem State.finish_slotAt {w : Wave} {p : Path} (hw : c.Stands w p) (a b : Option Operand) :
    SlotAt (s.finish c w a b) c p := by
  have hv := State.finish_sameButRegs hc hw.flowing a b
  refine ⟨?_, ?_, ?_, ?_⟩
  · rw [hv.slot, ← hw.path, ← hw.valid]; rfl
  · rw [hv.path, hw.otherPath]
  · rw [hv.slot, hw.otherValid]
  · rw [hv.split, hw.split]

theorem State.finish_sameCounters {w : Wave} (hw : c.Flowing w) (hn : w.nest = c.w.nest) (hj : w.jreg = c.w.jreg)
    (a b : Option Operand) : SameCounters (s.finish c w a b) c := by
  have hv := State.finish_sameButRegs hc hw a b
  exact ⟨hv.nest.trans hn, hv.jreg.trans hj⟩

theorem State.finish_nestOf {w : Wave} (hw : c.Flowing w) (a b : Option Operand) (l : Nat) :
    ((s.finish c w a b).wave c.wi).nestOf l = w.nestOf l := by
  rw [Wave.nestOf, (State.finish_sameButRegs hc hw a b).nest, Wave.nestOf]

theorem State.finish_counters {w : Wave} (hw : c.Flowing w) {f : Nat → Nat → Nat} (hn : c.Counts w f)
    (a b : Option Operand) : Counters (s.finish c w a b) c f :=
  fun l _ => (State.finish_nestOf hc hw a b l).trans (hn l)

end Finish

/-! ## Branches (R201, R202) -/

theorem Wave.room_one_of_free {w : Wave} {k : Bool} (h : (w.slot (!k)).valid = false) : w.room k 1 = true := by
  simp [Wave.room, h]

theorem Wave.room_one_of_used {w : Wave} {k : Bool} (h : (w.slot (!k)).valid = true) :
    w.room k 1 = decide (w.split.length < w.splitMax) := by
  simp only [Wave.room, h, if_true]
  exact decide_eq_decide.mpr (by omega)

theorem Wave.place_of_free {w : Wave} {k : Bool} (h : (w.slot (!k)).valid = false) (p : Path) :
    w.place k p = w.setSlot (!k) { valid := true, path := p } := by
  simp [Wave.place, h]

theorem Wave.place_of_used {w : Wave} {k : Bool} (h : (w.slot (!k)).valid = true) (p : Path) :
    w.place k p = { w with split := w.split ++ [p] } := by
  simp [Wave.place, h]

/-- Placing a new path leaves the placing slot's. -/
theorem Wave.place_path (w : Wave) (k : Bool) (p : Path) : (w.place k p).path k = w.path k := by
  unfold Wave.place
  split
  · rfl
  · cases k <;> rfl

theorem Wave.place_counters (w : Wave) (k : Bool) (p : Path) : (w.place k p).nest = w.nest ∧ (w.place k p).jreg = w.jreg := by
  unfold Wave.place
  split
  · exact ⟨rfl, rfl⟩
  · exact ⟨Wave.setSlot_nest .., Wave.setSlot_jreg ..⟩

/-- The path of the lanes that a BRC takes. -/
def Ctx.branch (c : Ctx) (taken : LaneMask) (target : Word) : Path := { mask := taken, pc := targetOf c target, depth := c.path.depth }

/-- The path of the lanes that a BRC leaves. -/
def Ctx.rest (c : Ctx) (taken : LaneMask) : Path := { c.path with mask := c.mask &&& ~~~ taken, pc := c.pc + 12 }

/-- The wave after a BRC that splits. -/
def Ctx.splitWave (c : Ctx) (s : State) (taken : LaneMask) (target : Word) : Wave :=
  ((c.go s).setPath c.isB (c.rest taken)).place c.isB (c.branch taken target)

theorem Ctx.flowing_splitWave (c : Ctx) (s : State) (taken : LaneMask) (target : Word) : c.Flowing (c.splitWave s taken target) :=
  ((c.flowing_go s).setPath _ _).place _ _

/-- With the other slot free the taken lanes go there. -/
theorem Ctx.splitWave_of_free {c : Ctx} (s : State) (taken : LaneMask) (target : Word) (h : (c.w.slot (!c.isB)).valid = false) :
    c.splitWave s taken target =
      ((c.go s).setPath c.isB (c.rest taken)).setSlot (!c.isB) { valid := true, path := c.branch taken target } :=
  Wave.place_of_free (by simp [h]) _

/-- With the other slot in use the taken lanes go to the split stack. -/
theorem Ctx.splitWave_of_used {c : Ctx} (s : State) (taken : LaneMask) (target : Word) (h : (c.w.slot (!c.isB)).valid = true) :
    c.splitWave s taken target =
      { (c.go s).setPath c.isB (c.rest taken) with split := c.w.split ++ [c.branch taken target] } := by
  rw [Ctx.splitWave, Wave.place_of_used (by simp [h]), Wave.setPath_split]; rfl

section Branch
variable {s : State} {h : Hdr} {c : Ctx} (hc : s.ctx h = some c)
include hc

/-- A slot that only moves, to `pc`: what BRA does, and BRC with no lane taken or all of them. -/
theorem State.finish_goto (pc : DWord) (a b : Option Operand) :
    let t := s.finish c ((c.go s).goto c.isB pc) a b
    Flows s t c ∧ SameCounters t c ∧ SlotAt t c { c.path with pc := pc } := by
  have hw := (Ctx.stands_go s (State.ctx_valid hc)).goto pc
  exact ⟨State.finish_flows hc hw.flowing a b,
    State.finish_sameCounters hc hw.flowing (Wave.setPath_nest ..) (Wave.setPath_jreg ..) a b, State.finish_slotAt hc hw a b⟩

/-- A split keeps the counters and J registers, and leaves the slot with the lanes that are not taken. -/
theorem State.finish_split (taken : LaneMask) (target : Word) (a b : Option Operand) :
    let t := s.finish c (c.splitWave s taken target) a b
    Flows s t c ∧ SameCounters t c ∧ (t.wave c.wi).path c.isB = c.rest taken := by
  have hf := c.flowing_splitWave s taken target
  obtain ⟨hn, hj⟩ := ((c.go s).setPath c.isB (c.rest taken)).place_counters c.isB (c.branch taken target)
  have hp : (c.splitWave s taken target).path c.isB = c.rest taken := (Wave.place_path ..).trans (Wave.path_setPath_same ..)
  exact ⟨State.finish_flows hc hf a b,
    State.finish_sameCounters hc hf (hn.trans (Wave.setPath_nest ..)) (hj.trans (Wave.setPath_jreg ..)) a b,
    ((State.finish_sameButRegs hc hf a b).path _).trans hp⟩

/-- A split with the other slot free puts the taken lanes there (R202). -/
theorem State.finish_split_free (taken : LaneMask) (target : Word) (a b : Option Operand)
    (hv : (c.w.slot (!c.isB)).valid = false) :
    let t := s.finish c (c.splitWave s taken target) a b
    (t.wave c.wi).split = c.w.split ∧ (t.wave c.wi).slot (!c.isB) = { valid := true, path := c.branch taken target } := by
  have hs := State.finish_sameButRegs hc (c.flowing_splitWave s taken target) a b
  dsimp only
  rw [hs.split, hs.slot, Ctx.splitWave_of_free s taken target hv, Wave.setSlot_split, Wave.setPath_split, Wave.slot_setSlot_same]
  exact ⟨rfl, rfl⟩

/-- A split with the other slot in use puts the taken lanes on the split stack (R202). -/
theorem State.finish_split_used (taken : LaneMask) (target : Word) (a b : Option Operand)
    (hv : (c.w.slot (!c.isB)).valid = true) :
    let t := s.finish c (c.splitWave s taken target) a b
    (t.wave c.wi).split = c.w.split ++ [c.branch taken target] ∧ (t.wave c.wi).path (!c.isB) = c.w.path (!c.isB) := by
  have hs := State.finish_sameButRegs hc (c.flowing_splitWave s taken target) a b
  dsimp only
  rw [hs.split, hs.path, Ctx.splitWave_of_used s taken target hv]
  exact ⟨rfl, (Wave.path_setPath_other ..).trans (c.go_path s _)⟩

theorem exec_bra (target : Word) :
    exec (.bra h target) s = .next (s.finish c ((c.go s).goto c.isB (targetOf c target)) none none) := by
  show execBra h target s = _
  rw [execBra, issue_some hc, Ctx.target_eq_targetOf]

/-- BRC in one equation: its lanes taken are none, all of the MASK, or a part that finds room or not. -/
theorem exec_brc {x : Operand} {taken : LaneMask} (ht : ∀ l < 32, taken.getLsbD l = (c.act.getLsbD l && c.w.cond x l))
    (target : Word) :
    exec (.brc h x target) s =
      if taken = 0 then .next (s.finish c ((c.go s).goto c.isB (c.pc + 12)) (some x) none)
      else if taken = c.mask then .next (s.finish c ((c.go s).goto c.isB (targetOf c target)) (some x) none)
      else guardTraps s c [if c.w.room c.isB 1 then none else some (Cause.splitOverflow, c.act, 0)]
        (.next (s.finish c (c.splitWave s taken target) (some x) none)) := by
  have hmask : maskOf (fun l => c.on l && c.w.cond x l) = taken := maskOf_eq ht
  have hstep : (c.go s).step12 c.isB = (c.go s).goto c.isB (c.pc + 12) := (Ctx.stands_go s (State.ctx_valid hc)).step12_eq
  show execBrc h x target s = _
  rw [execBrc, issue_some hc]
  simp only [hmask, hstep, Ctx.target_eq_targetOf, Ctx.go_path]
  rfl

end Branch

/-! ## Structured flow (R197, R198) -/

/-- A slot whose lanes' counters have changed moves to `pc`. -/
theorem State.finish_counted {s : State} {h : Hdr} {c : Ctx} (hc : s.ctx h = some c) {w : Wave} {f : Nat → Nat → Nat}
    (hw : c.Stands w c.path) (hn : c.Counts w f) (pc : DWord) (a b : Option Operand) :
    let t := s.finish c (w.goto c.isB pc) a b
    Flows s t c ∧ Counters t c f ∧ SlotAt t c { c.path with pc := pc } :=
  have hg := hw.goto pc
  ⟨State.finish_flows hc hg.flowing a b, State.finish_counters hc hg.flowing (hn.goto _ _) a b, State.finish_slotAt hc hg a b⟩

/-- Where IF and ELSE go from a wave with its counters changed. -/
def Ctx.skipTo (c : Ctx) (w : Wave) (target : Word) : DWord := if c.anyZero w then c.pc + 12 else targetOf c target

theorem State.finish_skipPc {s : State} {h : Hdr} {c : Ctx} (hc : s.ctx h = some c) {w : Wave} (hw : c.Flowing w) (pc : DWord)
    (target : Word) (a b : Option Operand) : skipPc (s.finish c (w.goto c.isB pc) a b) c target = c.skipTo w target := by
  have hn (l : Nat) : ((s.finish c (w.goto c.isB pc) a b).wave c.wi).nestOf l = w.nestOf l := by
    rw [State.finish_nestOf hc (hw.goto _ _), Wave.nestOf_goto]
  simp only [skipPc, hn, Ctx.skipTo, Ctx.anyZero_iff]

/-- The wave after the counters of the slot's lanes have changed at its issue, which stands where it stood. -/
theorem Ctx.stands_mapNest_go {s : State} {h : Hdr} {c : Ctx} (hc : s.ctx h = some c) (f : Nat → Nat → Nat) :
    c.Stands (c.mapNest (c.go s) f) c.path :=
  (Ctx.stands_go s (State.ctx_valid hc)).mapNest f

/-- After the first half of ENDLOOP some lane has counter 0 where one had at most 1. -/
theorem Ctx.anyZero_endloop {s : State} {c : Ctx} :
    c.anyZero (c.mapNest (c.go s) fun _ k => if k = 1 then 0 else k) = true ↔
      ∃ l < 32, c.mask.getLsbD l = true ∧ c.w.nestOf l ≤ 1 := by
  rw [Ctx.anyZero_iff]
  refine exists_congr fun l => and_congr_right fun _ => and_congr_right fun hm => ?_
  rw [c.counts_mapNest_go s _ l, if_pos hm]
  split <;> omega

section Structured
variable {s : State} {h : Hdr} {c : Ctx} (hc : s.ctx h = some c)
include hc

/-- The lanes of the MASK have their counters changed and the slot goes on at PC + 12. -/
theorem State.finish_mapNest_step12 (f : Nat → Nat → Nat) (a b : Option Operand) :
    let t := s.finish c ((c.mapNest (c.go s) f).step12 c.isB) a b
    Flows s t c ∧ Counters t c f ∧ SlotAt t c { c.path with pc := c.pc + 12 } := by
  have hw := Ctx.stands_mapNest_go hc f
  rw [hw.step12_eq]
  exact State.finish_counted hc hw (c.counts_mapNest_go s f) _ a b

/-- The lanes of the MASK have their counters changed and the slot skips to the target if none of them has counter 0. -/
theorem State.finish_mapNest_skip (f : Nat → Nat → Nat) (target : Word) (a b : Option Operand) :
    let w := c.mapNest (c.go s) f
    let t := s.finish c (if c.anyZero w then w.step12 c.isB else w.goto c.isB (c.target target)) a b
    Flows s t c ∧ Counters t c f ∧ SlotAt t c { c.path with pc := skipPc t c target } := by
  have hw := Ctx.stands_mapNest_go hc f
  have hgo : (if c.anyZero (c.mapNest (c.go s) f) then (c.mapNest (c.go s) f).step12 c.isB
      else (c.mapNest (c.go s) f).goto c.isB (c.target target)) =
      (c.mapNest (c.go s) f).goto c.isB (c.skipTo (c.mapNest (c.go s) f) target) := by
    rw [hw.step12_eq, Ctx.target_eq_targetOf, Ctx.skipTo, ← apply_ite]; rfl
  dsimp only
  rw [hgo, State.finish_skipPc hc hw.flowing]
  exact State.finish_counted hc hw (c.counts_mapNest_go s f) _ a b

theorem exec_ifI (x : Operand) (target : Word) (hn : ∀ l < 32, c.mask.getLsbD l = true → c.w.nestOf l < 63) :
    ∃ t, exec (.ifI h x target) s = .next t ∧ Flows s t c ∧ Counters t c (c.ifNest x) ∧
      SlotAt t c { c.path with pc := skipPc t c target } := by
  have hpass : c.nestOver (c.ifNest x) = none := Ctx.nestOver_none fun l hl hm => by
    have := hn l hl hm
    unfold Ctx.ifNest
    split
    · omega
    · split <;> omega
  refine ⟨_, ?_, State.finish_mapNest_skip hc (c.ifNest x) target (some x) none⟩
  show execIf h x target s = _
  rw [execIf, issue_some hc, hpass, guardTraps_none, guardTraps_nil]

theorem exec_ifI_overflow (x : Operand) (target : Word) (hn : ∃ l < 32, c.mask.getLsbD l = true ∧ 63 ≤ c.w.nestOf l) :
    ∃ m, exec (.ifI h x target) s = .next (s.takeTrap c Cause.nestingOverflow m 0) := by
  obtain ⟨l, hl, hm, hk⟩ := hn
  obtain ⟨m, htrap⟩ := Ctx.nestOver_some (c := c) (f := c.ifNest x) ⟨l, hl, hm, by
    rw [Ctx.ifNest, if_pos (by omega)]
    omega⟩
  refine ⟨m, ?_⟩
  show execIf h x target s = _
  rw [execIf, issue_some hc, htrap, guardTraps_some]

theorem exec_loop (hn : ∀ l < 32, c.mask.getLsbD l = true → c.w.nestOf l < 62) :
    ∃ t, exec (.loop h) s = .next t ∧ Flows s t c ∧ Counters t c (fun _ k => if k = 0 then 0 else k + 2) ∧
      SlotAt t c { c.path with pc := c.pc + 12 } := by
  have hpass : c.nestOver (fun _ k => if k = 0 then 0 else k + 2) = none := Ctx.nestOver_none fun l hl hm => by
    have := hn l hl hm
    split <;> omega
  refine ⟨_, ?_, State.finish_mapNest_step12 hc _ none none⟩
  show execLoop h s = _
  rw [execLoop, issue_some hc, hpass, guardTraps_none, guardTraps_nil]

theorem exec_loop_overflow (hn : ∃ l < 32, c.mask.getLsbD l = true ∧ 62 ≤ c.w.nestOf l) :
    ∃ m, exec (.loop h) s = .next (s.takeTrap c Cause.nestingOverflow m 0) := by
  obtain ⟨l, hl, hm, hk⟩ := hn
  obtain ⟨m, htrap⟩ := Ctx.nestOver_some (c := c) (f := fun _ k => if k = 0 then 0 else k + 2) ⟨l, hl, hm, by
    rw [if_neg (by omega)]
    omega⟩
  refine ⟨m, ?_⟩
  show execLoop h s = _
  rw [execLoop, issue_some hc, htrap, guardTraps_some]

theorem exec_elseI (target : Word) :
    ∃ t, exec (.elseI h target) s = .next t ∧ Flows s t c ∧ Counters t c (fun _ k => if k = 0 then 1 else if k = 1 then 0 else k) ∧
      SlotAt t c { c.path with pc := skipPc t c target } :=
  ⟨_, issue_some hc _, State.finish_mapNest_skip hc _ target none none⟩

theorem exec_endifI :
    ∃ t, exec (.endifI h) s = .next t ∧ Flows s t c ∧ Counters t c (fun _ k => k - 1) ∧ SlotAt t c { c.path with pc := c.pc + 12 } :=
  ⟨_, issue_some hc _, State.finish_mapNest_step12 hc _ none none⟩

theorem exec_breakI (x : Operand) (n : BitVec 6) :
    ∃ t, exec (.breakI h x n) s = .next t ∧ Flows s t c ∧
      Counters t c (fun l k => if c.act.getLsbD l && c.w.cond x l then n.toNat else k) ∧ SlotAt t c { c.path with pc := c.pc + 12 } :=
  ⟨_, issue_some hc _, State.finish_mapNest_step12 hc _ (some x) none⟩

theorem exec_cont (x : Operand) (n : BitVec 6) :
    ∃ t, exec (.cont h x n) s = .next t ∧ Flows s t c ∧
      Counters t c (fun l k => if c.act.getLsbD l && c.w.cond x l then n.toNat - 1 else k) ∧
      SlotAt t c { c.path with pc := c.pc + 12 } :=
  ⟨_, issue_some hc _, State.finish_mapNest_step12 hc _ (some x) none⟩

theorem exec_endloop (target : Word) :
    ∃ t, exec (.endloop h target) s = .next t ∧ Flows s t c ∧
      (if ∃ l < 32, c.mask.getLsbD l = true ∧ c.w.nestOf l ≤ 1 then
        Counters t c (fun _ k => if k = 1 then 0 else k) ∧ SlotAt t c { c.path with pc := targetOf c target }
      else Counters t c (fun _ k => k - 2) ∧ SlotAt t c { c.path with pc := c.pc + 12 }) := by
  have hw := Ctx.stands_mapNest_go hc fun _ k => if k = 1 then 0 else k
  have hn := c.counts_mapNest_go s fun _ k => if k = 1 then 0 else k
  refine ⟨_, issue_some hc _, ?_⟩
  dsimp only
  by_cases hz : ∃ l < 32, c.mask.getLsbD l = true ∧ c.w.nestOf l ≤ 1
  · rw [if_pos hz, if_pos (Ctx.anyZero_endloop.mpr hz), Ctx.target_eq_targetOf]
    exact State.finish_counted hc hw hn _ none none
  · have hsub : (fun (_ k : Nat) => (if k = 1 then 0 else k) - 2) = fun _ k => k - 2 := by
      funext _ k
      split <;> omega
    have hw2 := hw.mapNest fun _ k => k - 2
    rw [if_neg hz, if_neg (mt Ctx.anyZero_endloop.mp hz), hw2.step12_eq]
    exact State.finish_counted hc hw2 (hsub ▸ hn.mapNest fun _ k => k - 2) _ none none

end Structured

/-! ## The obligations -/

/-- Settles O26: the split is a wave of its own (`Ctx.splitWave`); each of its cases is read off `exec_brc`. -/
theorem branches : Obligations.Branches := by
  unfold Obligations.Branches
  intro s h c x target taken hc ht
  have hbrc := exec_brc hc ht target
  refine ⟨⟨_, exec_bra hc target, State.finish_goto hc _ none none⟩, fun h0 => ?_, fun h0 hall => ?_, fun h0 hall hv => ?_,
    fun h0 hall hv hroom => ?_, fun h0 hall hv hroom => ?_⟩
  · rw [if_pos h0] at hbrc
    exact ⟨_, hbrc, State.finish_goto hc _ (some x) none⟩
  · rw [if_neg h0, if_pos hall] at hbrc
    exact ⟨_, hbrc, State.finish_goto hc _ (some x) none⟩
  · rw [if_neg h0, if_neg hall, if_pos (Wave.room_one_of_free hv), guardTraps_none, guardTraps_nil] at hbrc
    obtain ⟨hflows, hcounters, hpath⟩ := State.finish_split hc taken target (some x) none
    obtain ⟨hsplit, hslot⟩ := State.finish_split_free hc taken target (some x) none hv
    exact ⟨_, hbrc, hflows, hcounters, hsplit, hpath, hslot⟩
  · have hr : c.w.room c.isB 1 = true := by rw [Wave.room_one_of_used hv]; exact decide_eq_true hroom
    rw [if_neg h0, if_neg hall, if_pos hr, guardTraps_none, guardTraps_nil] at hbrc
    obtain ⟨hflows, hcounters, hpath⟩ := State.finish_split hc taken target (some x) none
    obtain ⟨hsplit, hother⟩ := State.finish_split_used hc taken target (some x) none hv
    exact ⟨_, hbrc, hflows, hcounters, hsplit, hpath, hother⟩
  · have hr : ¬ c.w.room c.isB 1 = true := by rw [Wave.room_one_of_used hv]; simpa using hroom
    rw [if_neg h0, if_neg hall, if_neg hr, guardTraps_some] at hbrc
    exact hbrc

/-- Settles O28: each instruction changes the counters of the MASK once (`Ctx.nestOf_mapNest`) and moves the slot; ENDLOOP that falls
through changes them twice. -/
theorem structuredFlow : Obligations.StructuredFlow := by
  unfold Obligations.StructuredFlow
  intro s h c x n target hc
  exact ⟨exec_ifI hc x target, exec_elseI hc target, exec_endifI hc, exec_loop hc, exec_breakI hc x n, exec_cont hc x n,
    exec_endloop hc target, exec_ifI_overflow hc x target, exec_loop_overflow hc⟩

end Sys2Proof.Machine
end
